-- ==== Sys2Proof/Word.lean ====
section
/-! DEFINITION. The word types of EMFV (00_scope.md R12). Every one is unsigned; no value of the block is signed. -/

namespace Sys2Proof

/-- A byte, 0..255, bit 7 the most significant (00_scope.md R12, 20_memory.md R52). -/
abbrev Byte := BitVec 8

/-- A 16-bit field of a frame: a declared length or a checksum (20_memory.md R51). -/
abbrev Half := BitVec 16

/-- The 17-bit values: the byte counter and the two registers that hold a count (10_state.md R21, R29, R38). -/
abbrev Count := BitVec 17

/-- The 11-bit operation word, bit 0 the least significant (30_encoding.md R76). -/
abbrev OpWord := BitVec 11

end Sys2Proof
end

