-- ==== Sys2Proof/Config.lean ====
section
/-! DEFINITION. What an instance of the block fixes (00_scope.md R7 to R10), and the free values: the two known sets,
which the spec leaves OPEN, and the words an unconstrained producer presents. A free value has no body, so nothing
can be proved of its value. -/

namespace Sys2Proof

/-- `SOM`, the start-of-message byte (00_scope.md R7). -/
def som : Byte := 0xF0

/-- `EOM`, the end-of-message byte (00_scope.md R7). -/
def eom : Byte := 0x55

/-- `HDR_LEN`, the length of the fixed header (00_scope.md R8). -/
def hdrLen : Nat := 6

/-- `TRL_LEN`, the length of the trailer (00_scope.md R8). -/
def trlLen : Nat := 3

/-- `MIN_LEN = HDR_LEN + TRL_LEN`, the length of the smallest frame (00_scope.md R8). -/
def minLen : Nat := hdrLen + trlLen

/-- `CNT_SAT`, where the byte counter saturates (00_scope.md R9). -/
def cntSat : Nat := 65536

/-- The configuration of an instance of the block: the pair (`CLASS_MAP`, `TYPE_MAP`) of total functions from a byte
to a bit (00_scope.md R10, 43_stream_ops.md R155). It is no state: no operation changes it (R17). -/
structure Config where
  /-- `CLASS_MAP`: is the byte one of the known class codes? -/
  classMap : Byte → Bool
  /-- `TYPE_MAP`: is the byte one of the known type codes? -/
  typeMap : Byte → Bool

/-- The one constraint the source gives: type `0xFF` is unknown (00_scope.md R10). -/
def Config.AgreesWithSource (cfg : Config) : Prop := cfg.typeMap 0xFF = false

/-- FREE VALUE (log 3): which class codes the instance knows; OPEN in the spec (00_scope.md R10, 93 U5). -/
opaque Config.knownClass : Byte → Bool

/-- FREE VALUE (log 3): which type codes the instance knows, before the constraint on `0xFF` (00_scope.md R10, 93 U6). -/
opaque Config.knownTypeBeforeConstraint : Byte → Bool

/-- The instance the machine is: any class map whatever, and any type map with `TYPE_MAP(0xFF) = 0` (00_scope.md R10).
Every type map with that constraint is of this form, so the constraint is the only thing known of it. -/
def Config.chip : Config where
  classMap := Config.knownClass
  typeMap t := t != 0xFF && Config.knownTypeBeforeConstraint t

/-- FREE VALUE (log 1): the `k`-th word the producer presents once the words listed in the state have run out. The
producer is unconstrained (00_scope.md R16, 70_reset_and_hazards.md R231). -/
opaque Config.producerWord : Nat → OpWord

end Sys2Proof
end

