-- ==== Sys2Proof/Syntax.lean ====
section
/-! DEFINITION. The abstract syntax: the five operations (30_encoding.md R77) and the lines of the assembly notation
(R91, R92). -/

namespace Sys2Proof

/-- The operations of spec/opcode_table.json, one constructor a row (30_encoding.md R77). -/
inductive Instr where
  /-- RST (43_stream_ops.md R156). -/
  | rst
  /-- IDLE (43_stream_ops.md R157). -/
  | idle
  /-- END (43_stream_ops.md R166). -/
  | endFrame
  /-- PUSH b (43_stream_ops.md R159). -/
  | push (b : Byte)
  /-- PUSHL b (43_stream_ops.md R167). -/
  | pushl (b : Byte)
deriving DecidableEq, Repr

/-- A line of an assembly program (30_encoding.md R91, R92). A byte operand is the numeral as written, and a
hexadecimal operand the characters as written: which of them are legal is `AsmLine.wellFormed`. -/
inductive AsmLine where
  /-- A comment or an empty line: it expands to nothing. -/
  | nothing
  | rst
  | idle
  | endFrame
  | push (numeral : Nat)
  | pushl (numeral : Nat)
  /-- `FRAME <hex>`: one whole frame, its last byte closing it. -/
  | frame (hex : List Char)
  /-- `FRAMEX <hex>`: the same frame in the two-step form. -/
  | frameX (hex : List Char)
  /-- A line of the source's trace format, `<direction> <hex_payload> <timestamp>`. -/
  | trace (direction hex timestamp : List Char)
deriving DecidableEq, Repr

end Sys2Proof
end

