-- ==== Sys2Proof/WellFormed.lean ====
section
/-! DEFINITION. Which syntax is well-formed. An operation carries its bound in its operand's type, so each is
well-formed; numbers offered as operation words and lines of the assembly notation are not. -/

namespace Sys2Proof

/-- Every operation is well-formed: the operand of PUSH and PUSHL is any of the 256 bytes (30_encoding.md R75, R79). -/
def Instr.wellFormed : Instr → Bool
  | .rst => true
  | .idle => true
  | .endFrame => true
  | .push _ => true
  | .pushl _ => true

/-- A number is an operation word when the four input ports can carry it: 11 bits (30_encoding.md R76). -/
def isOpWord (v : Nat) : Bool := decide (v < 2 ^ 11)

/-- The value of a hexadecimal digit, in either case (30_encoding.md R91, R92); `none` for another character. -/
def hexDigit (c : Char) : Option Nat :=
  if '0' ≤ c ∧ c ≤ '9' then some (c.toNat - '0'.toNat)
  else if 'a' ≤ c ∧ c ≤ 'f' then some (c.toNat - 'a'.toNat + 10)
  else if 'A' ≤ c ∧ c ≤ 'F' then some (c.toNat - 'A'.toNat + 10)
  else none

/-- The operand of FRAME and FRAMEX: digit pairs, with spaces allowed between the pairs (30_encoding.md R92). An odd
number of digits, a space inside a pair or another character is refused. -/
def isHexOperand : List Char → Bool
  | [] => true
  | ' ' :: rest => isHexOperand rest
  | _ :: [] => false
  | c :: d :: rest => (hexDigit c).isSome && (hexDigit d).isSome && isHexOperand rest

/-- A field of a trace line holds no white space (30_encoding.md R92, 90_conflicts.md C7). -/
def isTraceField (cs : List Char) : Bool := cs.all fun c => !c.isWhitespace

/-- The lines the assembler accepts (30_encoding.md R91, R92). -/
def AsmLine.wellFormed : AsmLine → Bool
  | .nothing => true
  | .rst => true
  | .idle => true
  | .endFrame => true
  | .push n => decide (n ≤ 255)
  | .pushl n => decide (n ≤ 255)
  | .frame hex => isHexOperand hex
  | .frameX hex => isHexOperand hex
  | .trace direction hex timestamp =>
    !direction.isEmpty && isTraceField direction && isTraceField hex && isHexOperand hex
      && !timestamp.isEmpty && isTraceField timestamp

end Sys2Proof
end

