-- ==== Sys2Proof/Decode.lean ====
section
/-! DEFINITION. The operation word: its decoder, total on all 2048 words, and its encoder (30_encoding.md R76 to R79). -/

namespace Sys2Proof

/-- Port `rst`, `op[10]` (30_encoding.md R76). -/
def opRst (w : OpWord) : Bool := w.getLsbD 10

/-- Port `in_valid`, `op[9]` (30_encoding.md R76). -/
def opInValid (w : OpWord) : Bool := w.getLsbD 9

/-- Port `in_last`, `op[8]` (30_encoding.md R76). -/
def opInLast (w : OpWord) : Bool := w.getLsbD 8

/-- Port `in_data[7:0]`, `op[7:0]`: the immediate, unsigned and unscaled (30_encoding.md R76, R79). -/
def opInData (w : OpWord) : Byte := w.extractLsb' 0 8

/-- The one operation each of the 2048 words selects: `rst` wins, then `in_valid` and `in_last` choose, and bits an
operation ignores are not read (30_encoding.md R77, R78). -/
def decodeWord (w : OpWord) : Instr :=
  if opRst w then .rst
  else
    match opInValid w, opInLast w with
    | false, false => .idle
    | false, true => .endFrame
    | true, false => .push (opInData w)
    | true, true => .pushl (opInData w)

/-- Why a number offered to the decoder is no operation. -/
inductive DecodeError where
  /-- The number needs more than the 11 bits of the input ports. Safe: nothing runs. -/
  | widerThanElevenBits (v : Nat)
deriving DecidableEq, Repr

/-- The decoder on any number: the operation of an 11-bit word, or a rejection by name (log 5). -/
def decodeNat (v : Nat) : Except DecodeError Instr :=
  if isOpWord v then .ok (decodeWord (BitVec.ofNat 11 v)) else .error (.widerThanElevenBits v)

/-- The instruction the decoder reads from the table's `nbits` low bits of `w`, the bits above them zero. The word is
presented on parallel pins and stored nowhere, so no byte order enters (log 5). -/
def decodeTableWord (nbits w : Nat) : Option Instr :=
  match decodeNat (w % 2 ^ nbits) with
  | .ok i => some i
  | .error _ => none

/-- The canonical word of an operation (30_encoding.md R77). -/
def encode : Instr → OpWord
  | .rst => 0x400
  | .idle => 0x000
  | .endFrame => 0x100
  | .push b => 0x200 + b.setWidth 11
  | .pushl b => 0x300 + b.setWidth 11

/-- A row of the table of 30_encoding.md R77. -/
structure OpRow where
  /-- The operation's mnemonic. -/
  mnemonic : String
  /-- The bits the row fixes. -/
  mask : OpWord
  /-- Their values. -/
  pattern : OpWord
deriving DecidableEq, Repr

/-- The table of 30_encoding.md R77, in its order. -/
def opTable : List OpRow :=
  [⟨"RST", 0x400, 0x400⟩, ⟨"IDLE", 0x700, 0x000⟩, ⟨"END", 0x700, 0x100⟩, ⟨"PUSH", 0x700, 0x200⟩,
    ⟨"PUSHL", 0x700, 0x300⟩]

/-- Does the word belong to the row? (30_encoding.md R77) -/
def OpRow.selects (r : OpRow) (w : OpWord) : Bool := w &&& r.mask == r.pattern

/-- The row of an operation in the table of 30_encoding.md R77. -/
def Instr.row : Instr → OpRow
  | .rst => ⟨"RST", 0x400, 0x400⟩
  | .idle => ⟨"IDLE", 0x700, 0x000⟩
  | .endFrame => ⟨"END", 0x700, 0x100⟩
  | .push _ => ⟨"PUSH", 0x700, 0x200⟩
  | .pushl _ => ⟨"PUSHL", 0x700, 0x300⟩

/-- The bits of a word that its operation reads (30_encoding.md R77, R78): RST one, IDLE and END three, PUSH and PUSHL
all eleven. -/
def readBits (w : OpWord) : OpWord :=
  if opRst w then 0x400 else if opInValid w then 0x7FF else 0x700

/-- The byte operand of an operation, where it has one (30_encoding.md R79). -/
def Instr.operand : Instr → Option Byte
  | .rst => none
  | .idle => none
  | .endFrame => none
  | .push b => some b
  | .pushl b => some b

end Sys2Proof
end

