-- ==== Sys2Proof/Machine/State.lean ====
section
/-! DEFINITION. The machine's state. `Block` is the state of the spec (00_scope.md R17, 10_state.md R20): 24 registers and
nothing else. `Producer` is the model's own (log 1): the side the operation words come from, which the interface's step
has no other place for. `State` is the two together. -/

namespace Sys2Proof.Machine

/-- The working registers: what has been learnt of the frame now being received (10_state.md R20 to R24). -/
structure Working where
  /-- `cnt`: bytes accepted since the last close or reset, saturated at 65536 (R21). -/
  cnt : Count
  /-- `hdr0`: the start marker (R22). -/
  hdr0 : Byte
  /-- `hdr1`: the low byte of the declared length (R22). -/
  hdr1 : Byte
  /-- `hdr2`: the high byte of the declared length (R22). -/
  hdr2 : Byte
  /-- `hdr3`: the message class (R22). -/
  hdr3 : Byte
  /-- `hdr4`: the sequence number (R22). -/
  hdr4 : Byte
  /-- `hdr5`: the message type (R22). -/
  hdr5 : Byte
  /-- `tr0`: the oldest byte of the trailing window (R23). -/
  tr0 : Byte
  /-- `tr1`: the middle byte of the trailing window (R23). -/
  tr1 : Byte
  /-- `tr2`: the newest byte of the trailing window (R23). -/
  tr2 : Byte
  /-- `cap_lo`: the byte at index `dl - 3`, where that is 6 or more (R24). -/
  capLo : Byte
  /-- `cap_hi`: the byte at index `dl - 2`, where that is 6 or more (R24). -/
  capHi : Byte
deriving DecidableEq, Repr

/-- The result registers `S0..S10`: the report of the frame most recently closed (10_state.md R27 to R38). -/
structure Result where
  /-- `S0` STATUS, ten flags (R28). -/
  s0 : BitVec 10
  /-- `S1` COUNT, the actual length, saturated (R29). -/
  s1 : Count
  /-- `S2` DLEN, the declared length (R30). -/
  s2 : Half
  /-- `S3` SOMB, the start marker as received (R31). -/
  s3 : Byte
  /-- `S4` CLASS, the message class (R32). -/
  s4 : Byte
  /-- `S5` SEQ, the sequence number (R33). -/
  s5 : Byte
  /-- `S6` TYPE, the message type (R34). -/
  s6 : Byte
  /-- `S7` DCHK, the declared checksum (R35). -/
  s7 : Half
  /-- `S8` CCHK, the computed checksum (R36). -/
  s8 : Half
  /-- `S9` EOMB, the end marker as received (R37). -/
  s9 : Byte
  /-- `S10` PAYLEN, the payload length (R38). -/
  s10 : Count
deriving DecidableEq, Repr

/-- The whole state of the block: the 24 registers of 10_state.md R20, and nothing else (00_scope.md R17). No queue, no
oracle and no input is among them. -/
structure Block where
  /-- The twelve working registers. -/
  work : Working
  /-- The eleven result registers `S0..S10`. -/
  res : Result
  /-- `rpt_valid`, the report strobe (10_state.md R39). -/
  rptValid : Bool
deriving DecidableEq, Repr

/-- The producer's side (log 1): where the word of each step comes from. No part of the block's state (00_scope.md R16,
R17). -/
structure Producer where
  /-- The words the producer presents next, the first of them first. -/
  pending : List OpWord
  /-- How many free words have been drawn from `Config.producerWord`. -/
  drawn : Nat
deriving DecidableEq, Repr

/-- What a step of the interface acts on: the block's registers, and beside them the producer (log 1). -/
structure State extends Block, Producer
deriving DecidableEq, Repr

/-- Reasons to stop with a fault. There is none: nothing faults and nothing is stuck (00_scope.md R18, 43_stream_ops.md
R171), so the type has no constructor. -/
inductive Fault where
deriving DecidableEq, Repr

/-- Reasons to refuse. Nothing is refused (00_scope.md R18): the one constructor is the interface's own. -/
inductive Refusal where
  /-- An instruction without a meaning. Every instruction has one, so nothing raises it. Safe: nothing runs. -/
  | notModelled (mnemonic : String)
deriving DecidableEq, Repr

/-- All working registers zero: the state a reset and a close leave them in (10_state.md R41, R44). -/
def Working.cleared : Working where
  cnt := 0
  hdr0 := 0
  hdr1 := 0
  hdr2 := 0
  hdr3 := 0
  hdr4 := 0
  hdr5 := 0
  tr0 := 0
  tr1 := 0
  tr2 := 0
  capLo := 0
  capHi := 0

/-- All result registers zero: no report is held (10_state.md R41). -/
def Result.cleared : Result where
  s0 := 0
  s1 := 0
  s2 := 0
  s3 := 0
  s4 := 0
  s5 := 0
  s6 := 0
  s7 := 0
  s8 := 0
  s9 := 0
  s10 := 0

/-- The block after RST: all 24 registers zero (10_state.md R41, 70_reset_and_hazards.md R220). -/
def Block.reset : Block where
  work := Working.cleared
  res := Result.cleared
  rptValid := false

/-- The producer at the start: no word listed, no free word drawn (log 1). -/
def Producer.start : Producer where
  pending := []
  drawn := 0

/-- The machine right after reset: the block's registers as RST leaves them, the producer at its start (log 1). -/
def State.reset : State where
  toBlock := Block.reset
  toProducer := Producer.start

end Sys2Proof.Machine
end

