-- ==== Sys2Proof/Machine/Operands.lean ====
section
/-! DEFINITION. The operands: the 16-bit quantities assembled from two bytes, and the three ways a byte of the frame is
addressed in the streaming block (20_memory.md R51, R56 to R58; 30_encoding.md R79). -/

namespace Sys2Proof.Machine

/-- `le16(lo, hi) = lo + 256 * hi`, which is the concatenation of the two bytes with `hi` the more significant
(00_scope.md R13, 42_checksum_core.md R146). -/
def le16 (lo hi : Byte) : Half := hi ++ lo

/-- The declared length the header latches hold: `dl = le16(hdr1, hdr2)` (30_encoding.md R79). -/
def declaredLength (w : Working) : Half := le16 w.hdr1 w.hdr2

/-- The declared checksum, should the frame be closed now: `dchk = le16(tr0, tr1)` (30_encoding.md R79). -/
def declaredChecksum (w : Working) : Half := le16 w.tr0 w.tr1

/-- `kl = dl - 3`, in the integers (42_checksum_core.md R136). -/
def lowPosition (dl : Half) : Int := (dl.toNat : Int) - 3

/-- `kh = dl - 2`, in the integers (42_checksum_core.md R136). -/
def highPosition (dl : Half) : Int := (dl.toNat : Int) - 2

/-- The header latch `hdr[k]`, for `k` in 0..5; `none` where there is no such latch (10_state.md R22). -/
def headerLatch (w : Working) : Int → Option Byte
  | .ofNat 0 => some w.hdr0
  | .ofNat 1 => some w.hdr1
  | .ofNat 2 => some w.hdr2
  | .ofNat 3 => some w.hdr3
  | .ofNat 4 => some w.hdr4
  | .ofNat 5 => some w.hdr5
  | _ => none

/-- The byte addressed relative to the declared length at position `k`: a header latch where there is one, else the
capture register `cap` (20_memory.md R58, 43_stream_ops.md R165). -/
def modeLByte (w : Working) (k : Int) (cap : Byte) : Byte := (headerLatch w k).getD cap

/-- `b_lo` of the close (43_stream_ops.md R165). -/
def lowByte (w : Working) : Byte := modeLByte w (lowPosition (declaredLength w)) w.capLo

/-- `b_hi` of the close (43_stream_ops.md R165). -/
def highByte (w : Working) : Byte := modeLByte w (highPosition (declaredLength w)) w.capHi

end Sys2Proof.Machine
end

