-- ==== Sys2Proof/Machine/Checksum.lean ====
section
/-! DEFINITION. The checksum-only core: a combinational block with no state (42_checksum_core.md R143). -/

namespace Sys2Proof.Machine

/-- The core's outputs, 1 + 1 + 16 + 1 bits (42_checksum_core.md R143). -/
structure ChkCoreOut where
  /-- "Length valid". -/
  lenOk : Bool
  /-- The computed checksum is available. -/
  avail : Bool
  /-- The computed checksum, 0 where unavailable. -/
  cchk : Half
  /-- "Checksum valid", 0 where unavailable. -/
  chkOk : Bool
deriving DecidableEq, Repr

/-- Both positions lie inside a frame of `n` bytes: `3 <= dl <= n + 1` (42_checksum_core.md R138). -/
def checksumAvailable (n : Count) (dl : Half) : Bool := decide (3 ≤ dl.toNat ∧ dl.toNat ≤ n.toNat + 1)

/-- `ChkCore` (42_checksum_core.md R143). The 17-bit `n` and the 16-bit `dl` are compared as integers (R146), and the
two bytes are ignored where the checksum is unavailable. -/
def chkCore (n : Count) (dl dchk : Half) (bLo bHi : Byte) : ChkCoreOut where
  lenOk := decide (dl.toNat = n.toNat)
  avail := checksumAvailable n dl
  cchk := if checksumAvailable n dl then le16 bLo bHi else 0
  chkOk := if checksumAvailable n dl then decide (dchk = le16 bLo bHi) else false

end Sys2Proof.Machine
end

