-- ==== Sys2Proof/Machine/Flags.lean ====
section
/-! DEFINITION. The ten flags of the status register `S0` (10_state.md R28): the word they make and the bits it has. -/

namespace Sys2Proof.Machine

/-- The ten flags of `S0` (10_state.md R28). -/
structure StatusFlags where
  /-- Bit 0: a report is held. -/
  done : Bool
  /-- Bit 1: that frame was shorter than 9 bytes. -/
  invalid : Bool
  /-- Bit 2: validator check 1, the start marker. -/
  somOk : Bool
  /-- Bit 3: validator check 2, the class. -/
  classOk : Bool
  /-- Bit 4: validator check 3, the type. -/
  typeOk : Bool
  /-- Bit 5: validator check 4, the end marker. -/
  eomOk : Bool
  /-- Bit 6: length valid. -/
  lenOk : Bool
  /-- Bit 7: the computed checksum is available. -/
  chkAvail : Bool
  /-- Bit 8: checksum valid. -/
  chkOk : Bool
  /-- Bit 9: the byte counter saturated. -/
  lenSat : Bool
deriving DecidableEq, Repr

/-- The status word of ten flags, `LEN_SAT` its most significant bit (10_state.md R28). -/
def statusWord (f : StatusFlags) : BitVec 10 :=
  BitVec.ofBool f.lenSat ++ BitVec.ofBool f.chkOk ++ BitVec.ofBool f.chkAvail ++ BitVec.ofBool f.lenOk
    ++ BitVec.ofBool f.eomOk ++ BitVec.ofBool f.typeOk ++ BitVec.ofBool f.classOk ++ BitVec.ofBool f.somOk
    ++ BitVec.ofBool f.invalid ++ BitVec.ofBool f.done

/-- The status word of an `Invalid` report: DONE and INVALID, every other flag 0 (10_state.md R40). -/
def invalidStatus : BitVec 10 := 0b0000000011

/-- The ten flags read from a status word (10_state.md R28). -/
def readStatus (s0 : BitVec 10) : StatusFlags where
  done := s0.getLsbD 0
  invalid := s0.getLsbD 1
  somOk := s0.getLsbD 2
  classOk := s0.getLsbD 3
  typeOk := s0.getLsbD 4
  eomOk := s0.getLsbD 5
  lenOk := s0.getLsbD 6
  chkAvail := s0.getLsbD 7
  chkOk := s0.getLsbD 8
  lenSat := s0.getLsbD 9

/-- The flags of the held status register. -/
def flagsOf (r : Result) : StatusFlags := readStatus r.s0

end Sys2Proof.Machine
end

