-- ==== Sys2Proof/Machine/Ops.lean ====
section
/-! DEFINITION. The named operations the meanings share: taking the next word from the producer, accepting a byte
(43_stream_ops.md R159), and the frame close (R165). There is no operation that takes an exception: nothing traps
(60_exceptions.md R203), and diagnostics are bits the close writes. -/

namespace Sys2Proof.Machine

/-- The operation word on the input ports in this step (30_encoding.md R76): the first listed word, or a free one when
none is listed (log 1). -/
def nextWord (p : Producer) : OpWord :=
  match p.pending with
  | [] => Config.producerWord p.drawn
  | w :: _ => w

/-- The producer once the block has taken that word (log 1). -/
def takeWord (p : Producer) : Producer :=
  match p.pending with
  | [] => { p with drawn := p.drawn + 1 }
  | _ :: rest => { p with pending := rest }

/-- The working registers after byte `b` is accepted: the register transfers of PUSH (43_stream_ops.md R159), every
right-hand side reading the registers before. -/
def acceptByte (b : Byte) (w : Working) : Working where
  cnt := BitVec.ofNat 17 (min (w.cnt.toNat + 1) cntSat)
  hdr0 := if w.cnt.toNat = 0 then b else w.hdr0
  hdr1 := if w.cnt.toNat = 1 then b else w.hdr1
  hdr2 := if w.cnt.toNat = 2 then b else w.hdr2
  hdr3 := if w.cnt.toNat = 3 then b else w.hdr3
  hdr4 := if w.cnt.toNat = 4 then b else w.hdr4
  hdr5 := if w.cnt.toNat = 5 then b else w.hdr5
  tr0 := w.tr1
  tr1 := w.tr2
  tr2 := b
  capLo := if hdrLen ≤ w.cnt.toNat ∧ w.cnt.toNat + 3 = (declaredLength w).toNat then b else w.capLo
  capHi := if hdrLen ≤ w.cnt.toNat ∧ w.cnt.toNat + 2 = (declaredLength w).toNat then b else w.capHi

/-- What a close writes into `S0..S10` for a frame shorter than 9 bytes (43_stream_ops.md R165, 60_exceptions.md R191). -/
def latchInvalid (w : Working) : Result :=
  { Result.cleared with s0 := invalidStatus, s1 := w.cnt }

/-- What a close writes into `S0..S10` for a frame of 9 bytes or more (43_stream_ops.md R165). -/
def latchDecoded (cfg : Config) (w : Working) : Result :=
  let c := chkCore w.cnt (declaredLength w) (declaredChecksum w) (lowByte w) (highByte w)
  { s0 := statusWord
      { done := true
        invalid := false
        somOk := w.hdr0 == som
        classOk := cfg.classMap w.hdr3
        typeOk := cfg.typeMap w.hdr5
        eomOk := w.tr2 == eom
        lenOk := c.lenOk
        chkAvail := c.avail
        chkOk := c.chkOk
        lenSat := decide (w.cnt.toNat = cntSat) }
    s1 := w.cnt
    s2 := declaredLength w
    s3 := w.hdr0
    s4 := w.hdr3
    s5 := w.hdr4
    s6 := w.hdr5
    s7 := declaredChecksum w
    s8 := c.cchk
    s9 := w.tr2
    s10 := BitVec.ofNat 17 (w.cnt.toNat - minLen) }

/-- The report a close latches from the working registers (43_stream_ops.md R165). -/
def latchReport (cfg : Config) (w : Working) : Result :=
  if w.cnt.toNat < minLen then latchInvalid w else latchDecoded cfg w

/-- `Close`: latch the report, clear every working register, raise the strobe, all in one step (43_stream_ops.md R165). -/
def closeFrame (cfg : Config) (s : Block) : Block where
  work := Working.cleared
  res := latchReport cfg s.work
  rptValid := true

/-- The outcome of an operation on the registers: a next state, the producer's side as it was (log 6). -/
def onBlock (f : Block → Block) (s : State) : Host.Outcome State Fault Refusal :=
  .next { s with toBlock := f s.toBlock }

end Sys2Proof.Machine
end

