-- ==== Sys2Proof/Machine/Stream.lean ====
section
/-! DEFINITION. The operations that move bytes and close frames: PUSH, END and PUSHL (43_stream_ops.md R159, R166, R167). -/

namespace Sys2Proof.Machine

/-- PUSH b: accept the byte; the held report stays and the strobe falls (43_stream_ops.md R159). -/
def pushBlock (b : Byte) (s : Block) : Block :=
  { s with work := acceptByte b s.work, rptValid := false }

/-- END: close the frame as it stands (43_stream_ops.md R166). -/
def endBlock (cfg : Config) (s : Block) : Block := closeFrame cfg s

/-- PUSHL b: the register writes of PUSH b, then the close reads the registers so written (43_stream_ops.md R167). -/
def pushlBlock (cfg : Config) (b : Byte) (s : Block) : Block :=
  closeFrame cfg { s with work := acceptByte b s.work }

/-- The meaning of PUSH (43_stream_ops.md R159). -/
def execPush (b : Byte) (s : State) : Host.Outcome State Fault Refusal := onBlock (pushBlock b) s

/-- The meaning of END (43_stream_ops.md R166), under the instance's maps. -/
def execEnd (s : State) : Host.Outcome State Fault Refusal := onBlock (endBlock Config.chip) s

/-- The meaning of PUSHL (43_stream_ops.md R167), under the instance's maps. -/
def execPushl (b : Byte) (s : State) : Host.Outcome State Fault Refusal := onBlock (pushlBlock Config.chip b) s

end Sys2Proof.Machine
end

