-- ==== Sys2Proof/Machine/System.lean ====
section
/-! DEFINITION. The operations that accept no byte and close no frame: RST and IDLE (43_stream_ops.md R156, R157). -/

namespace Sys2Proof.Machine

/-- RST: all 24 registers to zero, whatever they held (43_stream_ops.md R156). -/
def rstBlock (_ : Block) : Block := Block.reset

/-- IDLE: the strobe falls and nothing else changes (43_stream_ops.md R157). -/
def idleBlock (s : Block) : Block := { s with rptValid := false }

/-- The meaning of RST (43_stream_ops.md R156). -/
def execRst (s : State) : Host.Outcome State Fault Refusal := onBlock rstBlock s

/-- The meaning of IDLE (43_stream_ops.md R157). -/
def execIdle (s : State) : Host.Outcome State Fault Refusal := onBlock idleBlock s

end Sys2Proof.Machine
end

