-- ==== Sys2Proof/Machine/Dispatch.lean ====
section
/-! DEFINITION. The dispatch: one arm an operation. -/

namespace Sys2Proof.Machine

def exec (i : Instr) (s : State) : Host.Outcome State Fault Refusal :=
  match i with
  | .rst => Sys2Proof.Machine.execRst s
  | .idle => Sys2Proof.Machine.execIdle s
  | .endFrame => Sys2Proof.Machine.execEnd s
  | .push b => Sys2Proof.Machine.execPush b s
  | .pushl b => Sys2Proof.Machine.execPushl b s

end Sys2Proof.Machine
end

