-- ==== Sys2Proof/Machine/Step.lean ====
section
/-! DEFINITION. One step: take the operation word on the ports and perform the one operation it selects
(43_stream_ops.md R155). The spec's own step function, on the registers alone, is `stepWord` of Machine/Run.lean. -/

namespace Sys2Proof.Machine

/-- One step (43_stream_ops.md R155). -/
def step (s : State) : Host.Outcome State Fault Refusal :=
  exec (decodeWord (nextWord s.toProducer)) { s with toProducer := takeWord s.toProducer }

/-- `s` with the word of `nbits` bits `w` as the next one the producer presents, before those already listed. The ports
carry 11 bits (log 5). -/
def State.withFetchWord (s : State) (nbits w : Nat) : State :=
  { s with pending := BitVec.ofNat 11 (w % 2 ^ nbits) :: s.pending }

end Sys2Proof.Machine
end

