-- ==== Sys2Proof/Machine/Assembly.lean ====
section
/-! DEFINITION. The assembler: lines of the notation of 30_encoding.md R91 to R93 to operation words. Notation only: no
operation of the block depends on it. -/

namespace Sys2Proof.Machine

/-- The bytes of a hexadecimal operand (30_encoding.md R92); `none` where `isHexOperand` refuses it. -/
def hexBytes : List Char → Option (List Byte)
  | [] => some []
  | ' ' :: rest => hexBytes rest
  | _ :: [] => none
  | c :: d :: rest =>
    match hexDigit c, hexDigit d, hexBytes rest with
    | some hi, some lo, some bytes => some (BitVec.ofNat 8 (16 * hi + lo) :: bytes)
    | _, _, _ => none

/-- `FRAME`: PUSH of every byte but the last, PUSHL of the last, or END for no byte (30_encoding.md R92). -/
def frameWords : List Byte → List OpWord
  | [] => [encode .endFrame]
  | [b] => [encode (.pushl b)]
  | b :: c :: rest => encode (.push b) :: frameWords (c :: rest)

/-- `FRAMEX`: PUSH of every byte, then END (30_encoding.md R92). -/
def frameXWords (raw : List Byte) : List OpWord := raw.map (fun b => encode (.push b)) ++ [encode .endFrame]

/-- The words of one line; `none` where the line is not well-formed (30_encoding.md R91, R92). -/
def assemble : AsmLine → Option (List OpWord)
  | .nothing => some []
  | .rst => some [encode .rst]
  | .idle => some [encode .idle]
  | .endFrame => some [encode .endFrame]
  | .push n => if n ≤ 255 then some [encode (.push (BitVec.ofNat 8 n))] else none
  | .pushl n => if n ≤ 255 then some [encode (.pushl (BitVec.ofNat 8 n))] else none
  | .frame hex => (hexBytes hex).map frameWords
  | .frameX hex => (hexBytes hex).map frameXWords
  | .trace direction hex timestamp =>
    if (AsmLine.trace direction hex timestamp).wellFormed then (hexBytes hex).map frameWords else none

/-- The words of a program: those of its lines, in order (30_encoding.md R90). -/
def assembleAll : List AsmLine → Option (List OpWord)
  | [] => some []
  | l :: ls =>
    match assemble l, assembleAll ls with
    | some ws, some rest => some (ws ++ rest)
    | _, _ => none

/-- A line without the white space at its two ends. -/
def trimSpace (cs : List Char) : List Char :=
  ((cs.dropWhile Char.isWhitespace).reverse.dropWhile Char.isWhitespace).reverse

/-- The fields of a line, `cur` being the one begun: what white space separates (30_encoding.md R92). -/
def splitFields (cur : List Char) : List Char → List (List Char)
  | [] => if cur.isEmpty then [] else [cur]
  | c :: rest =>
    if c.isWhitespace then
      if cur.isEmpty then splitFields [] rest else cur :: splitFields [] rest
    else splitFields (cur ++ [c]) rest

/-- A decimal numeral, `acc` being the value read so far; `none` at another character (30_encoding.md R91). -/
def decimalNumeral (acc : Nat) : List Char → Option Nat
  | [] => some acc
  | c :: rest => if '0' ≤ c ∧ c ≤ '9' then decimalNumeral (10 * acc + (c.toNat - '0'.toNat)) rest else none

/-- A byte operand: `0x` and two hexadecimal digits, or a decimal numeral (30_encoding.md R91). -/
def byteNumeral : List Char → Option Nat
  | [] => none
  | ['0', 'x', c, d] =>
    match hexDigit c, hexDigit d with
    | some hi, some lo => some (16 * hi + lo)
    | _, _ => none
  | c :: rest => decimalNumeral 0 (c :: rest)

/-- A line of assembly text: a mnemonic and its operand, a `;` comment dropped (30_encoding.md R91, R92; log 9). How a
trace line or a `#` line is told from a mnemonic line in one program the spec leaves open (`FRAME F0 55` is three fields
too): the model's choice (log 9) is one parser for each notation, so that this one refuses `#` lines and trace lines. -/
def parseLine (text : List Char) : Option AsmLine :=
  let line := trimSpace (text.takeWhile (· != ';'))
  let mnemonic := line.takeWhile (fun c => !c.isWhitespace)
  let operand := trimSpace (line.dropWhile (fun c => !c.isWhitespace))
  if line = [] then some .nothing
  else if mnemonic = ['R', 'S', 'T'] then if operand = [] then some .rst else none
  else if mnemonic = ['I', 'D', 'L', 'E'] then if operand = [] then some .idle else none
  else if mnemonic = ['E', 'N', 'D'] then if operand = [] then some .endFrame else none
  else if mnemonic = ['P', 'U', 'S', 'H'] then (byteNumeral operand).map .push
  else if mnemonic = ['P', 'U', 'S', 'H', 'L'] then (byteNumeral operand).map .pushl
  else if mnemonic = ['F', 'R', 'A', 'M', 'E'] then some (.frame operand)
  else if mnemonic = ['F', 'R', 'A', 'M', 'E', 'X'] then some (.frameX operand)
  else none

/-- A line of the source's trace format: three fields, or a comment that begins with `#` (30_encoding.md R92). Whoever has
the text says which of the two notations it is in (log 9). Where R92 is silent, the model's choices (log 9): white space
before the first field and after the last is dropped, but a `#` after white space begins no comment and is a character of
a field; a blank line has no three fields and is refused; the `;` comment of R91 is none here, and a `;` is a character of
a field. -/
def parseTraceLine (text : List Char) : Option AsmLine :=
  match text with
  | '#' :: _ => some .nothing
  | _ =>
    match splitFields [] text with
    | [direction, hex, timestamp] => some (.trace direction hex timestamp)
    | _ => none

end Sys2Proof.Machine
end

