-- ==== Sys2Proof/Machine/Report.lean ====
section
/-! DEFINITION. The report of a frame as an abstract value (10_state.md R26), its encoding in the result registers, and
the consumer's way back (R40). -/

namespace Sys2Proof.Machine

/-- The outcome of the checksum engine (10_state.md R26). "Unavailable" is a value of its own, never a number
(42_checksum_core.md R139). -/
inductive Checksum where
  /-- One of the two positions lies outside the frame. -/
  | unavailable
  /-- Both positions exist: the computed checksum, and whether it equals the declared one. -/
  | available (cchk : Half) (chkOk : Bool)
deriving DecidableEq, Repr

/-- The report of a frame of 9 bytes or more (10_state.md R26). -/
structure DecodedReport where
  /-- The actual length `N`. -/
  n : Nat
  /-- `start_marker`. -/
  som : Byte
  /-- `declared_length`. -/
  dl : Half
  /-- `message_class`. -/
  cls : Byte
  /-- `sequence_number`. -/
  seq : Byte
  /-- `message_type`. -/
  typ : Byte
  /-- The payload length `N - 9`. -/
  paylen : Nat
  /-- `declared_checksum`. -/
  dchk : Half
  /-- `end_marker`. -/
  eom : Byte
  /-- Validator check 1. -/
  somOk : Bool
  /-- Validator check 2. -/
  classOk : Bool
  /-- Validator check 3. -/
  typeOk : Bool
  /-- Validator check 4. -/
  eomOk : Bool
  /-- "Length valid". -/
  lenOk : Bool
  /-- The checksum engine's outcome. -/
  chk : Checksum
deriving DecidableEq, Repr

/-- The report of one frame (10_state.md R26). -/
inductive Report where
  /-- "Invalid message": a frame of 0..8 bytes, and nothing but its length. -/
  | invalid (n : Fin 9)
  /-- A frame of 9 bytes or more. -/
  | decoded (d : DecodedReport)
deriving DecidableEq, Repr

/-- `CHK_AVAIL` of a checksum outcome (10_state.md R40). -/
def checksumAvailBit : Checksum → Bool
  | .unavailable => false
  | .available _ _ => true

/-- `CHK_OK` of a checksum outcome: 0 where there is no verdict (10_state.md R40). -/
def checksumOkBit : Checksum → Bool
  | .unavailable => false
  | .available _ ok => ok

/-- `S8` of a checksum outcome: 0 where there is no checksum (10_state.md R40). -/
def checksumHalf : Checksum → Half
  | .unavailable => 0
  | .available cchk _ => cchk

/-- `min(n, 65536)` as the 17 bits of `S1` (10_state.md R40). -/
def saturatedCount (n : Nat) : Count := BitVec.ofNat 17 (min n cntSat)

/-- `Enc` on a report of 9 bytes or more (10_state.md R40). -/
def encDecoded (d : DecodedReport) : Result where
  s0 := statusWord
    { done := true
      invalid := false
      somOk := d.somOk
      classOk := d.classOk
      typeOk := d.typeOk
      eomOk := d.eomOk
      lenOk := d.lenOk
      chkAvail := checksumAvailBit d.chk
      chkOk := checksumOkBit d.chk
      lenSat := decide (cntSat ≤ d.n) }
  s1 := saturatedCount d.n
  s2 := d.dl
  s3 := d.som
  s4 := d.cls
  s5 := d.seq
  s6 := d.typ
  s7 := d.dchk
  s8 := checksumHalf d.chk
  s9 := d.eom
  s10 := BitVec.ofNat 17 (min d.n cntSat - minLen)

/-- `Enc : Report -> (S0, ..., S10)` (10_state.md R40). -/
def enc : Report → Result
  | .invalid n => { Result.cleared with s0 := invalidStatus, s1 := BitVec.ofNat 17 n.val }
  | .decoded d => encDecoded d

/-- The checksum outcome a consumer reads: `CHK_AVAIL` before `CHK_OK` and `S8` (10_state.md R40, 70_reset_and_hazards.md
R226). -/
def recoverChecksum (r : Result) : Checksum :=
  if (flagsOf r).chkAvail then .available r.s8 (flagsOf r).chkOk else .unavailable

/-- What a consumer learns from the result registers of the report they hold (70_reset_and_hazards.md R226, R233). -/
inductive Recovered where
  /-- `LEN_SAT = 0`: the report, whole. -/
  | exact (report : Report)
  /-- `LEN_SAT = 1`: a report of 9 bytes or more whose `n` and `paylen` are lower bounds, the rest of it exact. -/
  | lowerBounds (d : DecodedReport)
deriving DecidableEq, Repr

/-- Is the report one that the registers may hold, going by what the consumer learnt? Where `LEN_SAT = 1` the length and
the payload length are at least the ones read and everything else is as read (70_reset_and_hazards.md R226, R233). -/
def Recovered.admits : Recovered → Report → Bool
  | .exact report, r => r == report
  | .lowerBounds _, .invalid _ => false
  | .lowerBounds d, .decoded e =>
    decide (d.n ≤ e.n ∧ d.paylen ≤ e.paylen ∧ e = { d with n := e.n, paylen := e.paylen })

/-- The fields and the flags of a report of 9 bytes or more, as they read (10_state.md R40). -/
def readDecoded (r : Result) : DecodedReport where
  n := r.s1.toNat
  som := r.s3
  dl := r.s2
  cls := r.s4
  seq := r.s5
  typ := r.s6
  paylen := r.s10.toNat
  dchk := r.s7
  eom := r.s9
  somOk := (flagsOf r).somOk
  classOk := (flagsOf r).classOk
  typeOk := (flagsOf r).typeOk
  eomOk := (flagsOf r).eomOk
  lenOk := (flagsOf r).lenOk
  chk := recoverChecksum r

/-- What a consumer recovers from the result registers (10_state.md R40), in the order of 70_reset_and_hazards.md R226:
`DONE`, then `INVALID`, then `LEN_SAT` before `S1` and `S10` are taken as exact, and `CHK_AVAIL` before `CHK_OK` and `S8`.
On contents that no report encodes R40 is silent, and the answer is the model's choice (log 7): none where `DONE = 0`, and
none where `INVALID = 1` with `S1` of 9 or more; else what is read is taken as it reads, even where `S1 < 9`, where `S10`
is not `S1 - 9`, or where `LEN_SAT` does not go with `S1`. -/
def recoverReport (r : Result) : Option Recovered :=
  if (flagsOf r).done then
    if (flagsOf r).invalid then
      if h : r.s1.toNat < 9 then some (.exact (.invalid ⟨r.s1.toNat, h⟩)) else none
    else if (flagsOf r).lenSat then some (.lowerBounds (readDecoded r))
    else some (.exact (.decoded (readDecoded r)))
  else none

end Sys2Proof.Machine
end

