-- ==== Sys2Proof/Machine/Diagnostics.lean ====
section
/-! DEFINITION. The diagnostics DG1 to DG9 (60_exceptions.md R190 to R201): what the flags of `S0` signal and which values
are recorded. They are read from the registers a close wrote; none stops or redirects anything (R203). -/

namespace Sys2Proof.Machine

/-- The nine diagnostics (60_exceptions.md R201). -/
inductive Diagnostic where
  /-- DG1 INVALID_MESSAGE (R192). -/
  | invalidMessage
  /-- DG2 BAD_START (R193). -/
  | badStart
  /-- DG3 UNKNOWN_CLASS (R194). -/
  | unknownClass
  /-- DG4 UNKNOWN_TYPE (R195). -/
  | unknownType
  /-- DG5 BAD_END (R196). -/
  | badEnd
  /-- DG6 LENGTH_MISMATCH (R197). -/
  | lengthMismatch
  /-- DG7 CHECKSUM_UNAVAILABLE (R198). -/
  | checksumUnavailable
  /-- DG8 CHECKSUM_MISMATCH (R199). -/
  | checksumMismatch
  /-- DG9 COUNT_SATURATED (R200). -/
  | countSaturated
deriving DecidableEq, Repr

/-- The code number `k` of `DG<k>` (60_exceptions.md R201). -/
def diagnosticCode : Diagnostic → Nat
  | .invalidMessage => 1
  | .badStart => 2
  | .unknownClass => 3
  | .unknownType => 4
  | .badEnd => 5
  | .lengthMismatch => 6
  | .checksumUnavailable => 7
  | .checksumMismatch => 8
  | .countSaturated => 9

/-- All nine, by code. -/
def allDiagnostics : List Diagnostic :=
  [.invalidMessage, .badStart, .unknownClass, .unknownType, .badEnd, .lengthMismatch, .checksumUnavailable,
    .checksumMismatch, .countSaturated]

/-- Does `S0` signal the diagnostic of the frame whose report is held? (60_exceptions.md R201; a flag says nothing
outside its "meaningful when" condition, 10_state.md R28, so none is signalled while `DONE = 0`: log 8) -/
def signalled (r : Result) (d : Diagnostic) : Bool :=
  let f := flagsOf r
  f.done &&
    match d with
    | .invalidMessage => f.invalid
    | .badStart => !f.invalid && !f.somOk
    | .unknownClass => !f.invalid && !f.classOk
    | .unknownType => !f.invalid && !f.typeOk
    | .badEnd => !f.invalid && !f.eomOk
    | .lengthMismatch => !f.invalid && !f.lenOk
    | .checksumUnavailable => !f.invalid && !f.chkAvail
    | .checksumMismatch => !f.invalid && f.chkAvail && !f.chkOk
    | .countSaturated => !f.invalid && f.lenSat

/-- The diagnostics of the held report, by code (60_exceptions.md R202: all that apply, together). -/
def diagnosticsOf (r : Result) : List Diagnostic := allDiagnostics.filter (signalled r)

/-- The values recorded for a diagnostic, in the order of the table of 60_exceptions.md R201. -/
def recordedValues (r : Result) : Diagnostic → List Nat
  | .invalidMessage => [r.s1.toNat]
  | .badStart => [r.s3.toNat]
  | .unknownClass => [r.s4.toNat]
  | .unknownType => [r.s6.toNat]
  | .badEnd => [r.s9.toNat]
  | .lengthMismatch => [r.s2.toNat, r.s1.toNat]
  | .checksumUnavailable => [r.s2.toNat]
  | .checksumMismatch => [r.s7.toNat, r.s8.toNat]
  | .countSaturated => [r.s1.toNat]

/-- A valid frame: `INVALID = 0` and none of DG2 to DG9 (60_exceptions.md R201). -/
def isValidFrame (r : Result) : Bool := (flagsOf r).done && (diagnosticsOf r).isEmpty

end Sys2Proof.Machine
end

