-- ==== Sys2Proof/Machine/Reference.lean ====
section
/-! DEFINITION. The reference functions, the normative meaning of a report (00_scope.md R15): the Frame Decoder
(40_frame_decode.md), the Frame Validator (41_frame_validate.md), the Checksum Engine and the whole function
(42_checksum_core.md). Pure functions of a completed byte sequence. -/

namespace Sys2Proof.Machine

/-- `FrameRead(raw, k)`: the byte at index `k`, which exists only for `0 <= k < N` (00_scope.md R13, R14; 20_memory.md
R59: an index outside neither wraps nor reads a default). -/
def frameRead (raw : List Byte) : Int → Option Byte
  | .ofNat k => raw[k]?
  | .negSucc _ => none

/-- The fields the decoder extracts (40_frame_decode.md R100 to R108). -/
structure Fields where
  /-- The actual length. -/
  n : Nat
  /-- `start_marker`, index 0. -/
  som : Byte
  /-- `declared_length`, indices 1 and 2. -/
  dl : Half
  /-- `message_class`, index 3. -/
  cls : Byte
  /-- `sequence_number`, index 4. -/
  seq : Byte
  /-- `message_type`, index 5. -/
  typ : Byte
  /-- The payload length. -/
  paylen : Nat
  /-- `declared_checksum`, indices `N-3` and `N-2`. -/
  dchk : Half
  /-- `end_marker`, index `N-1`. -/
  eom : Byte
deriving DecidableEq, Repr

/-- What the decoder answers (40_frame_decode.md R100). -/
inductive DecodeResult where
  /-- Fewer than 9 bytes: no field is extracted. -/
  | tooShort (n : Fin 9)
  /-- All fields. -/
  | fields (f : Fields)
deriving DecidableEq, Repr

/-- `Decode(raw)` (40_frame_decode.md R111). The gate is on the actual length alone; past it all nine indices are in
range. -/
def decodeFrame (raw : List Byte) : DecodeResult :=
  if h : raw.length < 9 then .tooShort ⟨raw.length, h⟩
  else .fields
    { n := raw.length
      som := raw[0]
      dl := le16 raw[1] raw[2]
      cls := raw[3]
      seq := raw[4]
      typ := raw[5]
      paylen := raw.length - 9
      dchk := le16 raw[raw.length - 3] raw[raw.length - 2]
      eom := raw[raw.length - 1] }

/-- The payload, `raw[6 .. N-3)`: the bytes between the header and the trailer (40_frame_decode.md R106). -/
def payloadOf (raw : List Byte) : List Byte := (raw.take (raw.length - trlLen)).drop hdrLen

/-- The four bits of the validator (41_frame_validate.md R120). -/
structure Checks where
  /-- Check 1. -/
  somOk : Bool
  /-- Check 2. -/
  classOk : Bool
  /-- Check 3. -/
  typeOk : Bool
  /-- Check 4. -/
  eomOk : Bool
deriving DecidableEq, Repr

/-- `Check(f)` (41_frame_validate.md R127): four independent, advisory checks. -/
def checkFields (cfg : Config) (f : Fields) : Checks where
  somOk := f.som == Sys2Proof.som
  classOk := cfg.classMap f.cls
  typeOk := cfg.typeMap f.typ
  eomOk := f.eom == Sys2Proof.eom

/-- The checksum outcome of `Chk(raw, f)` (42_checksum_core.md R136 to R140): available exactly when both positions
have a byte. -/
def chkOutcome (raw : List Byte) (f : Fields) : Checksum :=
  match frameRead raw (lowPosition f.dl), frameRead raw (highPosition f.dl) with
  | some lo, some hi => .available (le16 lo hi) (decide (f.dchk = le16 lo hi))
  | _, _ => .unavailable

/-- "Length valid" of `Chk(raw, f)` (42_checksum_core.md R141). -/
def lengthValid (f : Fields) : Bool := decide (f.dl.toNat = f.n)

/-- `Chk(raw, f)` (42_checksum_core.md R142): "length valid" and the checksum outcome. -/
def chkFrame (raw : List Byte) (f : Fields) : Bool × Checksum := (lengthValid f, chkOutcome raw f)

/-- The report that fields, checks and the checksum engine's outcome make (42_checksum_core.md R147). -/
def reportOf (f : Fields) (v : Checks) (c : Bool × Checksum) : DecodedReport where
  n := f.n
  som := f.som
  dl := f.dl
  cls := f.cls
  seq := f.seq
  typ := f.typ
  paylen := f.paylen
  dchk := f.dchk
  eom := f.eom
  somOk := v.somOk
  classOk := v.classOk
  typeOk := v.typeOk
  eomOk := v.eomOk
  lenOk := c.1
  chk := c.2

/-- `Validate(raw)`: the report of a byte sequence (42_checksum_core.md R147). -/
def validate (cfg : Config) (raw : List Byte) : Report :=
  match decodeFrame raw with
  | .tooShort n => .invalid n
  | .fields f => .decoded (reportOf f (checkFields cfg f) (chkFrame raw f))

end Sys2Proof.Machine
end

