-- ==== Sys2Proof/Machine/Run.lean ====
section
/-! DEFINITION. The step function of 43_stream_ops.md R155, `Config x State x Word -> State`, on the block's 24 registers
and nothing else (00_scope.md R17: the word is its input, the maps its parameters), its runs, and what a word
sequence presents: the frames it closes and the bytes it leaves open (R158, R177). -/

namespace Sys2Proof.Machine

/-- The registers an operation leads to, under a configuration (43_stream_ops.md R155, R171). -/
def perform (cfg : Config) (i : Instr) (s : Block) : Block :=
  match i with
  | .rst => rstBlock s
  | .idle => idleBlock s
  | .endFrame => endBlock cfg s
  | .push b => pushBlock b s
  | .pushl b => pushlBlock cfg b s

/-- `Step(cfg, s, w)` (43_stream_ops.md R155): total, deterministic, over the registers alone (00_scope.md R17). -/
def stepWord (cfg : Config) (s : Block) (w : OpWord) : Block := perform cfg (decodeWord w) s

/-- The last state of the run on a word sequence (43_stream_ops.md R155). -/
def runWords (cfg : Config) (s : Block) (ws : List OpWord) : Block := ws.foldl (stepWord cfg) s

/-- The states `s1 ... sm` of the run on a word sequence (43_stream_ops.md R155). -/
def runStates (cfg : Config) : Block → List OpWord → List Block
  | _, [] => []
  | s, w :: ws => stepWord cfg s w :: runStates cfg (stepWord cfg s w) ws

/-- The block's outputs in a state: `rpt_valid` and `S0..S10` (43_stream_ops.md R155: a Moore machine). -/
def outputs (s : Block) : Bool × Result := (s.rptValid, s.res)

/-- The reports a consumer takes that samples where `rpt_valid = 1` (70_reset_and_hazards.md R224). -/
def sampledReports (states : List Block) : List Result := (states.filter (·.rptValid)).map (·.res)

/-- The byte sequences a word sequence closes, in order, `cur` being the bytes of the frame already open
(43_stream_ops.md R158, R177). A reset drops the open frame (70_reset_and_hazards.md R227). -/
def framesClosed (cur : List Byte) : List OpWord → List (List Byte)
  | [] => []
  | w :: ws =>
    match decodeWord w with
    | .rst => framesClosed [] ws
    | .idle => framesClosed cur ws
    | .endFrame => cur :: framesClosed [] ws
    | .push b => framesClosed (cur ++ [b]) ws
    | .pushl b => (cur ++ [b]) :: framesClosed [] ws

/-- The bytes of the frame still open after a word sequence (43_stream_ops.md R158). -/
def openBytes (cur : List Byte) : List OpWord → List Byte
  | [] => cur
  | w :: ws =>
    match decodeWord w with
    | .rst => openBytes [] ws
    | .idle => openBytes cur ws
    | .endFrame => openBytes [] ws
    | .push b => openBytes (cur ++ [b]) ws
    | .pushl _ => openBytes [] ws

/-- Is the operation IDLE? -/
def isIdle : Instr → Bool
  | .idle => true
  | .rst => false
  | .endFrame => false
  | .push _ => false
  | .pushl _ => false

/-- Does the operation close a frame? (43_stream_ops.md R165: END and PUSHL) -/
def isClose : Instr → Bool
  | .endFrame => true
  | .pushl _ => true
  | .rst => false
  | .idle => false
  | .push _ => false

/-- The operations of a word sequence that are not IDLE, in order. -/
def activeOps (ws : List OpWord) : List Instr := (ws.map decodeWord).filter fun i => !isIdle i

/-- The word sequence presents the one frame `raw`: pushes of its bytes, IDLE words anywhere among them, then the
closing word, which is END or carries the last byte (43_stream_ops.md R175). -/
def PresentsFrame (raw : List Byte) (ws : List OpWord) : Prop :=
  ∃ body closing, ws = body ++ [closing] ∧
    ((decodeWord closing = .endFrame ∧ activeOps body = raw.map .push) ∨
      ∃ bytes last, raw = bytes ++ [last] ∧ decodeWord closing = .pushl last ∧ activeOps body = bytes.map .push)

/-- The working registers after the bytes of `raw` are accepted from a cleared state (43_stream_ops.md R175). -/
def workingAfter (raw : List Byte) : Working := raw.foldl (fun w b => acceptByte b w) Working.cleared

end Sys2Proof.Machine
end

