-- ==== Sys2Proof/Safety.lean ====
section
/-! DEFINITION. What counts as a safe run and a legal state, in the terms the claims use. Nothing faults and nothing is
refused (00_scope.md R18), so a safe run is any run; what a state must not lose is the meaning of its registers. -/

namespace Sys2Proof.Machine

/-- The outcome of the next `k` steps of the machine, by the host's own run. -/
def runSteps (k : Nat) (s : State) : Host.Outcome State Fault Refusal := Host.Core.run Sys2Proof.core k s

/-- The registers after each of the next `k` steps of the machine, in order, up to a stop. -/
def stepBlocks : Nat → State → List Block
  | 0, _ => []
  | k + 1, s =>
    match step s with
    | .next t => t.toBlock :: stepBlocks k t
    | .fault _ => []
    | .refused _ => []

/-- The registers that hold a count stay in the ranges the spec gives them (10_state.md R21, R29, R38). -/
structure RegisterRanges (s : Block) : Prop where
  cnt_le : s.work.cnt.toNat ≤ 65536
  s1_le : s.res.s1.toNat ≤ 65536
  s10_le : s.res.s10.toNat ≤ 65527

/-- What the flags of a held report say of its fields, when the report is of a frame of 9 bytes or more
(10_state.md R28 to R38). -/
structure DecodedConsistent (cfg : Config) (r : Result) : Prop where
  length : 9 ≤ r.s1.toNat
  paylen : r.s10.toNat = r.s1.toNat - 9
  somOk : (flagsOf r).somOk = true ↔ r.s3 = 0xF0
  classOk : (flagsOf r).classOk = cfg.classMap r.s4
  typeOk : (flagsOf r).typeOk = cfg.typeMap r.s6
  eomOk : (flagsOf r).eomOk = true ↔ r.s9 = 0x55
  lenOk : (flagsOf r).lenOk = true ↔ r.s2.toNat = r.s1.toNat
  chkAvail : (flagsOf r).chkAvail = true ↔ 3 ≤ r.s2.toNat ∧ r.s2.toNat ≤ r.s1.toNat + 1
  chkOk : (flagsOf r).chkOk = true ↔ (flagsOf r).chkAvail = true ∧ r.s7 = r.s8
  noChecksum : (flagsOf r).chkAvail = false → r.s8 = 0
  lenSat : (flagsOf r).lenSat = true ↔ r.s1.toNat = 65536
  exclusive : ¬((flagsOf r).lenOk = true ∧ (flagsOf r).lenSat = true)

/-- The result registers are a legal report, or hold none: outside its "meaningful when" condition a register reads 0,
inside it the flags say the truth of the fields (10_state.md R28 to R38, R40). -/
structure ReportConsistent (cfg : Config) (r : Result) : Prop where
  noReport : (flagsOf r).done = false → r = Result.cleared
  invalid : (flagsOf r).done = true → (flagsOf r).invalid = true →
    r.s1.toNat < 9 ∧ r = { Result.cleared with s0 := 0b0000000011, s1 := r.s1 }
  decoded : (flagsOf r).done = true → (flagsOf r).invalid = false → DecodedConsistent cfg r

/-- The capture registers and the trailing window hold the same byte wherever both hold it: the positions `dl - 3` and
`dl - 2`, for a declared length of the bytes received so far, one more, or two more (10_state.md R23, R24). -/
structure WindowAgrees (w : Working) : Prop where
  whole : 9 ≤ (declaredLength w).toNat → (declaredLength w).toNat = w.cnt.toNat → w.capLo = w.tr0 ∧ w.capHi = w.tr1
  oneMore : 9 ≤ (declaredLength w).toNat → (declaredLength w).toNat = w.cnt.toNat + 1 →
    w.capLo = w.tr1 ∧ w.capHi = w.tr2
  twoMore : 9 ≤ (declaredLength w).toNat → (declaredLength w).toNat = w.cnt.toNat + 2 → w.capLo = w.tr2

/-- A right length is reported with an available, valid checksum equal to the declared one (42_checksum_core.md R144). -/
def LengthForcesChecksum (r : Result) : Prop :=
  (flagsOf r).lenOk = true → (flagsOf r).chkAvail = true ∧ (flagsOf r).chkOk = true ∧ r.s8 = r.s7

/-- The registers are those of a frame in progress and of a frame reported: the working registers are what some byte
sequence leaves in them, and the result registers hold no report or the report of some byte sequence
(43_stream_ops.md R175). -/
def HoldsRealReport (cfg : Config) (s : Block) : Prop :=
  (∃ raw, s.work = workingAfter raw) ∧ (s.res = Result.cleared ∨ ∃ raw, s.res = enc (validate cfg raw))

/-- What is left of a report in the registers: all of it, or, from 65536 bytes on, all but the exact length, of which the
lower bounds 65536 and 65527 are left (10_state.md R40, 70_reset_and_hazards.md R233). -/
def retained : Report → Recovered
  | .invalid n => .exact (.invalid n)
  | .decoded d =>
    if 65536 ≤ d.n then .lowerBounds { d with n := 65536, paylen := 65527 } else .exact (.decoded d)

/-- A report whose length and payload length are those of a frame (10_state.md R26). -/
def Report.wellFormed : Report → Bool
  | .invalid _ => true
  | .decoded d => decide (9 ≤ d.n ∧ d.paylen = d.n - 9)

end Sys2Proof.Machine
end

