-- ==== Sys2Proof/Certificates/Slice0/Obligations.lean ====
section
/-! DEFINITION. The statements for the provers. Each docstring names the rule of spec/ it formalises. Statements about
`Config.chip` are about the machine's instance, whose maps are free values (log 3), so they hold for every instance. -/

open Sys2Proof Sys2Proof.Machine

/-! ## Encoding (30_encoding.md) -/

/-- Decoding the canonical word of an operation gives the operation back, whatever its operand, both from the word and
from the word as a number of at least 11 bits (R77, R79). -/
def Obligations.EncodeThenDecode : Prop :=
  ∀ i : Instr, i.wellFormed = true →
    decodeWord (encode i) = i ∧ ∀ nbits, 11 ≤ nbits → decodeTableWord nbits (encode i).toNat = some i

/-- The decode table of R77, row by row over all 2048 words; exactly one row selects each word; the rows' counts of
words; the canonical words. -/
def Obligations.DecodeFollowsTable : Prop :=
  (∀ w : OpWord,
    (w &&& 0x400#11 = 0x400#11 → decodeWord w = .rst) ∧
    (w &&& 0x700#11 = 0x000#11 → decodeWord w = .idle) ∧
    (w &&& 0x700#11 = 0x100#11 → decodeWord w = .endFrame) ∧
    (w &&& 0x700#11 = 0x200#11 → decodeWord w = .push (w.setWidth 8)) ∧
    (w &&& 0x700#11 = 0x300#11 → decodeWord w = .pushl (w.setWidth 8)) ∧
    (opTable.filter fun r => r.selects w).length = 1 ∧
    opTable.filter (fun r => r.selects w) = [(decodeWord w).row]) ∧
  opTable.map (fun r => ((List.range 2048).filter fun v => r.selects (BitVec.ofNat 11 v)).length)
    = [1024, 256, 256, 256, 256] ∧
  encode .rst = 0x400#11 ∧ encode .idle = 0x000#11 ∧ encode .endFrame = 0x100#11 ∧
  ∀ b : Byte, (encode (.push b)).toNat = 0x200 + b.toNat ∧ (encode (.pushl b)).toNat = 0x300 + b.toNat

/-- Two words that differ only in bits their operation ignores have the same effect in every state, and no word traps:
each has a next state (R78). -/
def Obligations.IgnoredBitsHaveNoEffect : Prop :=
  ∀ w v : OpWord, (w ^^^ v) &&& readBits w = 0#11 →
    ∀ (s : State) (ws : List OpWord),
      step { s with pending := w :: ws } = step { s with pending := v :: ws } ∧
      ∃ t, step { s with pending := w :: ws } = .next t

/-- A sanity check: words written out from the table of 30_encoding.md R77 and the vectors of 95_test_vectors.md section
6.1 decode to the operations they stand for. -/
def Obligations.WrittenWordsDecode : Prop :=
  decodeWord 0b10000000000#11 = .rst ∧ decodeWord 0b11111111111#11 = .rst ∧ decodeWord 0b11001010101#11 = .rst ∧
  decodeWord 0b10101010101#11 = .rst ∧ decodeWord 0b00000000000#11 = .idle ∧ decodeWord 0b00011111111#11 = .idle ∧
  decodeWord 0b00100000000#11 = .endFrame ∧ decodeWord 0b00111110000#11 = .endFrame ∧
  decodeWord 0b01000000000#11 = .push 0x00#8 ∧ decodeWord 0b01011110000#11 = .push 0xF0#8 ∧
  decodeWord 0b01011111111#11 = .push 0xFF#8 ∧ decodeWord 0b01100000000#11 = .pushl 0x00#8 ∧
  decodeWord 0b01101010101#11 = .pushl 0x55#8 ∧ decodeWord 0b01111111111#11 = .pushl 0xFF#8

/-- The source's one example in assembly notation, and the nine words it assembles to (R93). -/
def Obligations.SourceExampleAssembles : Prop :=
  assemble (.frame
      ['F', '0', ' ', '0', '6', '0', '0', ' ', '0', '1', ' ', '0', '0', ' ', '0', '3', ' ', 'A', 'A', 'B', 'B', ' ', '5', '5'])
    = some [0x2F0#11, 0x206#11, 0x200#11, 0x201#11, 0x200#11, 0x203#11, 0x2AA#11, 0x2BB#11, 0x355#11]

/-- Both pseudo-instructions present exactly their bytes as one frame, and lead to the same state (R92, R178). -/
def Obligations.PseudoInstructionsPresentTheirBytes : Prop :=
  ∀ raw : List Byte,
    PresentsFrame raw (frameWords raw) ∧ PresentsFrame raw (frameXWords raw) ∧
    ∀ (cfg : Config) (s : Block), runWords cfg s (frameWords raw) = runWords cfg s (frameXWords raw)

/-! ## The step (43_stream_ops.md) -/

/-- A step runs the operation decoded from the word on the ports, on the registers as they are. Which word that
is, is the model's own choice (log 1): the first of the listed words, which is then dropped, or, where none is listed,
the next free word of the unconstrained producer. -/
def Obligations.StepRunsTheDecodedOperation : Prop :=
  ∀ s : State,
    (∀ i, decodeWord (nextWord s.toProducer) = i → step s = exec i { s with toProducer := takeWord s.toProducer }) ∧
    (∀ w ws, s.pending = w :: ws →
      nextWord s.toProducer = w ∧ takeWord s.toProducer = { s.toProducer with pending := ws }) ∧
    (s.pending = [] → nextWord s.toProducer = Config.producerWord s.drawn ∧
      takeWord s.toProducer = { s.toProducer with drawn := s.drawn + 1 })

/-- The spec's step function is on the 24 registers alone, its input the word (00_scope.md R17): what a step leaves in
the registers is `Step` of the registers and the word, so two states that agree on both agree on the registers after it,
whatever the producer has listed. The last clause is the model's own (log 1, log 6): what a step leaves on the producer's
side depends on that side alone. -/
def Obligations.RegistersAloneAreTheBlockState : Prop :=
  (∀ s : State, ∃ t, step s = .next t ∧ t.toBlock = stepWord Config.chip s.toBlock (nextWord s.toProducer)) ∧
  (∀ s s' t t' : State, s.toBlock = s'.toBlock → nextWord s.toProducer = nextWord s'.toProducer →
    step s = .next t → step s' = .next t' → t.toBlock = t'.toBlock) ∧
  ∀ s s' t t' : State, s.toProducer = s'.toProducer → step s = .next t → step s' = .next t' →
    t.toProducer = t'.toProducer

/-- Every step from every state, reachable or not, has exactly one next state, on every word; no operation faults or is
refused (R171). -/
def Obligations.EveryStepAnswersOneNextState : Prop :=
  (∀ s : State, ∃! t, step s = .next t) ∧
  (∀ (s : State) (w : OpWord) (ws : List OpWord), ∃! t, step { s with pending := w :: ws } = .next t) ∧
  (∀ (i : Instr) (s : State), ∃! t, exec i s = .next t) ∧
  ∀ (cfg : Config) (s : Block) (w : OpWord), ∃! t, stepWord cfg s w = t

/-- A run of the machine on the words the producer lists is the run of the reference step, word by word in order, under
the instance's configuration (R155; the list of words is the model's own, log 1). -/
def Obligations.MachineRunsTheReferenceStep : Prop :=
  ∀ (s : State) (ws rest : List OpWord), s.pending = ws ++ rest →
    runSteps ws.length s =
      .next { toBlock := runWords Config.chip s.toBlock ws, toProducer := { s.toProducer with pending := rest } }

/-! ## The five operations (43_stream_ops.md R156 to R167) -/

/-- RST: its encoding, every one of the 24 registers to zero from any state, and in the reset state no change (R156).
That the producer's side stays as it was is the model's choice (log 6), no clause of R156. -/
def Obligations.ResetClearsEveryRegister : Prop :=
  (∀ w : OpWord, w.getLsbD 10 = true → decodeWord w = .rst) ∧
  (∀ s : State,
    exec .rst s = .next
      { work := { cnt := 0, hdr0 := 0, hdr1 := 0, hdr2 := 0, hdr3 := 0, hdr4 := 0, hdr5 := 0, tr0 := 0, tr1 := 0,
                  tr2 := 0, capLo := 0, capHi := 0 }
        res := { s0 := 0, s1 := 0, s2 := 0, s3 := 0, s4 := 0, s5 := 0, s6 := 0, s7 := 0, s8 := 0, s9 := 0, s10 := 0 }
        rptValid := false
        toProducer := s.toProducer }) ∧
  exec .rst State.reset = .next State.reset

/-- IDLE: its encoding, and of the registers the strobe alone falls (R157). That the producer's side stays as it was is
the model's choice (log 6). -/
def Obligations.IdleOnlyLowersTheStrobe : Prop :=
  (∀ w : OpWord, w.extractLsb' 8 3 = 0b000#3 → decodeWord w = .idle) ∧
  ∀ s : State, exec .idle s = .next { s with rptValid := false }

/-- PUSH b: its encoding and its register transfers, over every state: one header latch while the count is 5 or less,
the two captures, the window, the saturating count, the strobe; the held report stays (R159). The last clause, that the
producer's side stays as it was, is the model's choice (log 6). -/
def Obligations.PushTransfersRegisters : Prop :=
  (∀ w : OpWord, w.extractLsb' 8 3 = 0b010#3 → decodeWord w = .push (w.extractLsb' 0 8)) ∧
  ∀ (b : Byte) (s : State), ∃ t, exec (.push b) s = .next t ∧
    (∀ k : Nat, k < 6 → headerLatch t.work k = if s.work.cnt.toNat = k then some b else headerLatch s.work k) ∧
    (t.work.capLo = if 6 ≤ s.work.cnt.toNat ∧ s.work.cnt.toNat + 3 = s.work.hdr1.toNat + 256 * s.work.hdr2.toNat
      then b else s.work.capLo) ∧
    (t.work.capHi = if 6 ≤ s.work.cnt.toNat ∧ s.work.cnt.toNat + 2 = s.work.hdr1.toNat + 256 * s.work.hdr2.toNat
      then b else s.work.capHi) ∧
    t.work.tr0 = s.work.tr1 ∧ t.work.tr1 = s.work.tr2 ∧ t.work.tr2 = b ∧
    t.work.cnt.toNat = min (s.work.cnt.toNat + 1) 65536 ∧
    (s.work.cnt.toNat = 65536 →
      t.work = { s.work with tr0 := s.work.tr1, tr1 := s.work.tr2, tr2 := b }) ∧
    t.res = s.res ∧ t.rptValid = false ∧ t.toProducer = s.toProducer

/-- END: its encoding, and the close, register by register over every state (R165, R166). `dl` is the declared length of
the header latches, `lo` and `hi` the bytes at its two positions. That the producer's side stays as it was is the model's
choice (log 6). -/
def Obligations.EndClosesTheFrame : Prop :=
  (∀ w : OpWord, w.extractLsb' 8 3 = 0b001#3 → decodeWord w = .endFrame) ∧
  ∀ (s : State) (n dl : Nat), n = s.work.cnt.toNat → dl = s.work.hdr1.toNat + 256 * s.work.hdr2.toNat →
    ∃ t, exec .endFrame s = .next t ∧
      t.work = { cnt := 0, hdr0 := 0, hdr1 := 0, hdr2 := 0, hdr3 := 0, hdr4 := 0, hdr5 := 0, tr0 := 0, tr1 := 0,
                 tr2 := 0, capLo := 0, capHi := 0 } ∧
      t.rptValid = true ∧ t.toProducer = s.toProducer ∧
      (n < 9 → t.res = { s0 := 0b0000000011, s1 := s.work.cnt, s2 := 0, s3 := 0, s4 := 0, s5 := 0, s6 := 0, s7 := 0,
                         s8 := 0, s9 := 0, s10 := 0 }) ∧
      (9 ≤ n →
        t.res.s0.getLsbD 0 = true ∧ t.res.s0.getLsbD 1 = false ∧
        (t.res.s0.getLsbD 2 = true ↔ s.work.hdr0 = 0xF0#8) ∧
        t.res.s0.getLsbD 3 = Config.chip.classMap s.work.hdr3 ∧
        t.res.s0.getLsbD 4 = Config.chip.typeMap s.work.hdr5 ∧
        (t.res.s0.getLsbD 5 = true ↔ s.work.tr2 = 0x55#8) ∧
        (t.res.s0.getLsbD 6 = true ↔ dl = n) ∧
        (t.res.s0.getLsbD 7 = true ↔ 3 ≤ dl ∧ dl ≤ n + 1) ∧
        (t.res.s0.getLsbD 9 = true ↔ n = 65536) ∧
        t.res.s1 = s.work.cnt ∧ t.res.s2.toNat = dl ∧ t.res.s3 = s.work.hdr0 ∧ t.res.s4 = s.work.hdr3 ∧
        t.res.s5 = s.work.hdr4 ∧ t.res.s6 = s.work.hdr5 ∧
        t.res.s7.toNat = s.work.tr0.toNat + 256 * s.work.tr1.toNat ∧
        t.res.s9 = s.work.tr2 ∧ t.res.s10.toNat = n - 9 ∧
        (¬(3 ≤ dl ∧ dl ≤ n + 1) → t.res.s0.getLsbD 8 = false ∧ t.res.s8 = 0) ∧
        (3 ≤ dl ∧ dl ≤ n + 1 → ∀ lo hi : Byte,
          (if dl - 3 ≤ 5 then headerLatch s.work ((dl - 3 : Nat) : Int) = some lo else lo = s.work.capLo) →
          (if dl - 2 ≤ 5 then headerLatch s.work ((dl - 2 : Nat) : Int) = some hi else hi = s.work.capHi) →
          t.res.s8.toNat = lo.toNat + 256 * hi.toNat ∧
          (t.res.s0.getLsbD 8 = true ↔ t.res.s7.toNat = lo.toNat + 256 * hi.toNat)))

/-- PUSHL b: its encoding, and it is PUSH b and then END, in one step (R167). -/
def Obligations.PushlIsPushThenEnd : Prop :=
  (∀ w : OpWord, w.extractLsb' 8 3 = 0b011#3 → decodeWord w = .pushl (w.extractLsb' 0 8)) ∧
  ∀ (b : Byte) (s : State), ∃ m t,
    exec (.push b) s = .next m ∧ exec .endFrame m = .next t ∧ exec (.pushl b) s = .next t

/-- The byte PUSHL carries is the frame's last: with 8 bytes or more before it, it is the end marker tested, the two
bytes before it are the declared checksum and the header is the one held; with fewer, the whole report is the `Invalid`
one of that length, every other register zero (R167, its corner cases; R23; R40). That the producer's side stays as it was
is the model's choice (log 6). -/
def Obligations.PushlByteIsTheEndMarker : Prop :=
  ∀ (b : Byte) (s : State), ∃ t, exec (.pushl b) s = .next t ∧ t.rptValid = true ∧
    t.work = State.reset.work ∧ t.toProducer = s.toProducer ∧
    (s.work.cnt.toNat < 8 →
      t.res.s1.toNat = s.work.cnt.toNat + 1 ∧
      t.res = { s0 := 0b0000000011, s1 := t.res.s1, s2 := 0, s3 := 0, s4 := 0, s5 := 0, s6 := 0, s7 := 0, s8 := 0,
                s9 := 0, s10 := 0 }) ∧
    (8 ≤ s.work.cnt.toNat →
      t.res.s9 = b ∧ (t.res.s0.getLsbD 5 = true ↔ b = 0x55#8) ∧
      t.res.s7.toNat = s.work.tr1.toNat + 256 * s.work.tr2.toNat ∧
      t.res.s1.toNat = min (s.work.cnt.toNat + 1) 65536 ∧
      t.res.s2.toNat = s.work.hdr1.toNat + 256 * s.work.hdr2.toNat ∧
      t.res.s3 = s.work.hdr0 ∧ t.res.s4 = s.work.hdr3 ∧ t.res.s5 = s.work.hdr4 ∧ t.res.s6 = s.work.hdr5)

/-! ## What holds of every step -/

/-- The strobe is up exactly in the states that follow an END or a PUSHL, and down after reset (10_state.md R39). -/
def Obligations.StrobeMarksCloses : Prop :=
  State.reset.rptValid = false ∧
  ∀ s t : State, step s = .next t →
    (t.rptValid = true ↔ decodeWord (nextWord s.toProducer) = .endFrame ∨ ∃ b, decodeWord (nextWord s.toProducer) = .pushl b)

/-- The result registers are written by END, PUSHL and RST only (10_state.md R27, R43). -/
def Obligations.OnlyClosesAndResetWriteResults : Prop :=
  ∀ s t : State, step s = .next t → t.res ≠ s.res →
    decodeWord (nextWord s.toProducer) = .rst ∨ decodeWord (nextWord s.toProducer) = .endFrame ∨
      ∃ b, decodeWord (nextWord s.toProducer) = .pushl b

/-- What happens to the byte counter: plus one, saturating, on PUSH; back to 0 on END, PUSHL and RST; unchanged on IDLE
(R179). -/
def Obligations.CounterMovesAsTheOperationSays : Prop :=
  ∀ s t : State, step s = .next t →
    (∀ b, decodeWord (nextWord s.toProducer) = .push b → t.work.cnt.toNat = min (s.work.cnt.toNat + 1) 65536) ∧
    (decodeWord (nextWord s.toProducer) = .endFrame → t.work.cnt = 0) ∧
    (∀ b, decodeWord (nextWord s.toProducer) = .pushl b → t.work.cnt = 0) ∧
    (decodeWord (nextWord s.toProducer) = .rst → t.work.cnt = 0) ∧
    (decodeWord (nextWord s.toProducer) = .idle → t.work.cnt = s.work.cnt)

/-- After any close the working registers are as after reset (10_state.md R44). -/
def Obligations.CloseLeavesTheResetWorkingState : Prop :=
  ∀ s t : State, step s = .next t → t.rptValid = true → t.work = State.reset.work

/-- What a step makes of the working registers depends on them and the word alone; what a close reports does too,
whatever report was held and whatever the strobe was (10_state.md R42, R44; 43_stream_ops.md R177). -/
def Obligations.ReportIgnoresHistory : Prop :=
  ∀ s s' t t' : State, s.work = s'.work → nextWord s.toProducer = nextWord s'.toProducer → step s = .next t → step s' = .next t' →
    t.work = t'.work ∧ t.rptValid = t'.rptValid ∧ (t.rptValid = true → t.res = t'.res)

/-- After a close the report stays through any number of IDLE and PUSH words, and the strobe is up only in the state
right after the close (R170). -/
def Obligations.ReportIsHeldUntilTheNextClose : Prop :=
  ∀ (s : State) (ws rest : List OpWord), s.pending = ws ++ rest →
    (∀ w ∈ ws, decodeWord w = .idle ∨ ∃ b, decodeWord w = .push b) →
    ∃ t, runSteps ws.length s = .next t ∧ t.res = s.res ∧
      (ws ≠ [] → t.rptValid = false) ∧ (ws = [] → t.rptValid = s.rptValid)

/-- An open frame never reports by itself: bytes alone, in any number, raise no strobe and latch nothing; the count
saturates (70_reset_and_hazards.md R228). -/
def Obligations.OpenFrameNeverReports : Prop :=
  ∀ (s : State) (ws rest : List OpWord) (bytes : List Byte), s.pending = ws ++ rest →
    s.work.cnt.toNat ≤ 65536 → activeOps ws = bytes.map .push →
    sampledReports (stepBlocks ws.length s) = [] ∧
    ∃ t, runSteps ws.length s = .next t ∧ t.res = s.res ∧
      t.work.cnt.toNat = min (s.work.cnt.toNat + bytes.length) 65536

/-! ## Reset (10_state.md R41, 70_reset_and_hazards.md) -/

/-- The state after reset: every register zero, so no report is held; and RST takes the registers of any state there
(R41, R220). -/
def Obligations.ResetStateIsAllZero : Prop :=
  (State.reset.work.cnt = 0 ∧ (∀ k : Nat, k < 6 → headerLatch State.reset.work k = some 0) ∧
    State.reset.work.tr0 = 0 ∧ State.reset.work.tr1 = 0 ∧ State.reset.work.tr2 = 0 ∧
    State.reset.work.capLo = 0 ∧ State.reset.work.capHi = 0) ∧
  State.reset.res =
    { s0 := 0, s1 := 0, s2 := 0, s3 := 0, s4 := 0, s5 := 0, s6 := 0, s7 := 0, s8 := 0, s9 := 0, s10 := 0 } ∧
  State.reset.rptValid = false ∧ recoverReport State.reset.res = none ∧
  ∀ s : State, ∃ t, exec .rst s = .next t ∧ t.work = State.reset.work ∧ t.res = State.reset.res ∧
    t.rptValid = State.reset.rptValid

/-- A reset in mid-frame, or as the first word ever from any register contents, leaves no trace: the next frame is
reported as its own bytes alone (70_reset_and_hazards.md R221, R222, R227). -/
def Obligations.ResetThenFrameReportsTheFrame : Prop :=
  ∀ (s : State) (raw : List Byte) (w : OpWord) (ws rest : List OpWord), decodeWord w = .rst → PresentsFrame raw ws →
    s.pending = w :: ws ++ rest →
    ∃ t, runSteps (ws.length + 1) s = .next t ∧ t.rptValid = true ∧
      t.res = enc (validate Config.chip raw) ∧ t.work = State.reset.work

/-! ## The reference functions (files 40 to 42) -/

/-- The decoder reads the frame layout: header, payload, trailer (30_encoding.md R70; 40_frame_decode.md R101 to R108). -/
def Obligations.DecoderReadsTheLayout : Prop :=
  (∀ (b0 b1 b2 b3 b4 b5 c0 c1 e : Byte) (payload : List Byte),
    ∃ f, decodeFrame (b0 :: b1 :: b2 :: b3 :: b4 :: b5 :: (payload ++ [c0, c1, e])) = .fields f ∧
      f.n = payload.length + 9 ∧ f.som = b0 ∧ f.dl.toNat = b1.toNat + 256 * b2.toNat ∧ f.cls = b3 ∧ f.seq = b4 ∧
      f.typ = b5 ∧ f.paylen = payload.length ∧ f.dchk.toNat = c0.toNat + 256 * c1.toNat ∧ f.eom = e ∧
      payloadOf (b0 :: b1 :: b2 :: b3 :: b4 :: b5 :: (payload ++ [c0, c1, e])) = payload) ∧
  ∀ raw : List Byte, 9 ≤ raw.length → ∃ b0 b1 b2 b3 b4 b5 c0 c1 e payload,
    raw = b0 :: b1 :: b2 :: b3 :: b4 :: b5 :: (payload ++ [c0, c1, e])

/-- The gate is on the actual length alone: fewer than 9 bytes give the `Invalid` report of that length, its status
word and the one diagnostic; 9 or more are decoded with that length (R100). -/
def Obligations.ShortFramesAreInvalid : Prop :=
  ∀ (cfg : Config) (raw : List Byte),
    (∀ h : raw.length < 9,
      decodeFrame raw = .tooShort ⟨raw.length, h⟩ ∧ validate cfg raw = .invalid ⟨raw.length, h⟩ ∧
      (enc (validate cfg raw)).s0 = 0b0000000011 ∧ (enc (validate cfg raw)).s1.toNat = raw.length ∧
      diagnosticsOf (enc (validate cfg raw)) = [.invalidMessage]) ∧
    (9 ≤ raw.length → ∃ f d, decodeFrame raw = .fields f ∧ f.n = raw.length ∧ validate cfg raw = .decoded d ∧
      d.n = raw.length)

/-- The computed checksum is available exactly when `3 <= dl <= N + 1`; each position taken alone; a negative position
is outside; and the flag (R138). -/
def Obligations.ChecksumAvailabilityRange : Prop :=
  ∀ (cfg : Config) (raw : List Byte) (f : Fields), decodeFrame raw = .fields f →
    ((frameRead raw (lowPosition f.dl)).isSome = true ↔ 3 ≤ f.dl.toNat ∧ f.dl.toNat ≤ raw.length + 2) ∧
    ((frameRead raw (highPosition f.dl)).isSome = true ↔ 2 ≤ f.dl.toNat ∧ f.dl.toNat ≤ raw.length + 1) ∧
    (chkOutcome raw f ≠ .unavailable ↔ 3 ≤ f.dl.toNat ∧ f.dl.toNat ≤ raw.length + 1) ∧
    ((flagsOf (enc (validate cfg raw))).chkAvail = true ↔ 3 ≤ f.dl.toNat ∧ f.dl.toNat ≤ raw.length + 1)

/-- A right declared length forces the checksum to be available and valid, whatever the bytes are (R144). -/
def Obligations.RightLengthForcesValidChecksum : Prop :=
  ∀ (cfg : Config) (raw : List Byte) (d : DecodedReport), validate cfg raw = .decoded d → d.lenOk = true →
    d.chk = .available d.dchk true

/-- The checksum outcome in every case of the declared length against the actual one, with the bytes read
(R145; the overlaps of 20_memory.md R66). -/
def Obligations.ChecksumCaseTable : Prop :=
  ∀ (cfg : Config) (raw : List Byte) (f : Fields), decodeFrame raw = .fields f → ∃ d, validate cfg raw = .decoded d ∧
    (d.lenOk = true ↔ f.dl.toNat = raw.length) ∧
    (f.dl.toNat < 3 → d.chk = .unavailable) ∧
    (raw.length + 2 ≤ f.dl.toNat → d.chk = .unavailable) ∧
    (3 ≤ f.dl.toNat → f.dl.toNat ≤ raw.length + 1 → ∃ lo hi,
      raw[f.dl.toNat - 3]? = some lo ∧ raw[f.dl.toNat - 2]? = some hi ∧
      d.chk = .available (le16 lo hi) (decide (f.dchk = le16 lo hi))) ∧
    (f.dl.toNat = 6 → d.chk = .available (le16 f.cls f.seq) (decide (f.dchk = le16 f.cls f.seq))) ∧
    (f.dl.toNat = 7 → d.chk = .available (le16 f.seq f.typ) (decide (f.dchk = le16 f.seq f.typ))) ∧
    (f.dl.toNat = raw.length → d.chk = .available f.dchk true) ∧
    (f.dl.toNat = raw.length + 1 → ∃ hi, raw[raw.length - 2]? = some hi ∧
      d.chk = .available (le16 hi f.eom) (decide (f.dchk = le16 hi f.eom)))

/-- A valid checksum says nothing of the length: for every length and every other available declared length there is a
frame with the checksum valid and the length wrong (R145, its last sentence; 70_reset_and_hazards.md R230). -/
def Obligations.ValidChecksumDoesNotForceLength : Prop :=
  ∀ (cfg : Config) (n dl : Nat), 9 ≤ n → 3 ≤ dl → dl ≤ n + 1 → dl < 65536 → dl ≠ n →
    ∃ raw d cchk, raw.length = n ∧ validate cfg raw = .decoded d ∧ d.dl.toNat = dl ∧ d.lenOk = false ∧
      d.chk = .available cchk true

/-- The checksum-only core: its outputs; it is the reference function under the register encoding; and the close contains
exactly it, on the working registers (R143). -/
def Obligations.CoreIsTheReferenceFunction : Prop :=
  (∀ (n : Count) (dl dchk : Half) (bLo bHi : Byte),
    ((chkCore n dl dchk bLo bHi).lenOk = true ↔ dl.toNat = n.toNat) ∧
    ((chkCore n dl dchk bLo bHi).avail = true ↔ 3 ≤ dl.toNat ∧ dl.toNat ≤ n.toNat + 1) ∧
    ((chkCore n dl dchk bLo bHi).avail = true →
      (chkCore n dl dchk bLo bHi).cchk.toNat = bLo.toNat + 256 * bHi.toNat ∧
      ((chkCore n dl dchk bLo bHi).chkOk = true ↔ dchk.toNat = bLo.toNat + 256 * bHi.toNat)) ∧
    ((chkCore n dl dchk bLo bHi).avail = false →
      (chkCore n dl dchk bLo bHi).cchk = 0 ∧ (chkCore n dl dchk bLo bHi).chkOk = false)) ∧
  (∀ (raw : List Byte) (f : Fields) (bLo bHi : Byte), decodeFrame raw = .fields f →
    (3 ≤ f.dl.toNat → f.dl.toNat ≤ raw.length + 1 →
      raw[f.dl.toNat - 3]? = some bLo ∧ raw[f.dl.toNat - 2]? = some bHi) →
    chkCore (BitVec.ofNat 17 (min raw.length 65536)) f.dl f.dchk bLo bHi =
      { lenOk := (chkFrame raw f).1
        avail := checksumAvailBit (chkFrame raw f).2
        cchk := checksumHalf (chkFrame raw f).2
        chkOk := checksumOkBit (chkFrame raw f).2 }) ∧
  ∀ s : State, 9 ≤ s.work.cnt.toNat → ∃ t, exec .endFrame s = .next t ∧
    chkCore s.work.cnt (declaredLength s.work) (declaredChecksum s.work) (lowByte s.work) (highByte s.work) =
      { lenOk := t.res.s0.getLsbD 6
        avail := t.res.s0.getLsbD 7
        cchk := t.res.s8
        chkOk := t.res.s0.getLsbD 8 }

/-- Type `0xFF` is unknown on every instance: a frame with that type byte is reported with TYPE_OK down and the byte in
S6 (41_frame_validate.md R123; the maps are free values, log 3). -/
def Obligations.TypeFFIsUnknown : Prop :=
  Config.chip.AgreesWithSource ∧
  ∀ s : State, 9 ≤ s.work.cnt.toNat → s.work.hdr5 = 0xFF#8 →
    ∃ t, exec .endFrame s = .next t ∧ t.res.s0.getLsbD 4 = false ∧ t.res.s6 = 0xFF#8 ∧
      signalled t.res .unknownType = true

/-! ## The report and its encoding (10_state.md) -/

/-- The status word and its ten flags are the same thing: bit `i` is the flag of row `i`, and nothing is lost (R28). -/
def Obligations.StatusWordIsItsFlags : Prop :=
  (∀ f : StatusFlags,
    readStatus (statusWord f) = f ∧
    (statusWord f).getLsbD 0 = f.done ∧ (statusWord f).getLsbD 1 = f.invalid ∧ (statusWord f).getLsbD 2 = f.somOk ∧
    (statusWord f).getLsbD 3 = f.classOk ∧ (statusWord f).getLsbD 4 = f.typeOk ∧ (statusWord f).getLsbD 5 = f.eomOk ∧
    (statusWord f).getLsbD 6 = f.lenOk ∧ (statusWord f).getLsbD 7 = f.chkAvail ∧ (statusWord f).getLsbD 8 = f.chkOk ∧
    (statusWord f).getLsbD 9 = f.lenSat) ∧
  ∀ v : BitVec 10, statusWord (readStatus v) = v

/-- The encoding loses nothing but the exact length of a frame of 65536 bytes or more: the consumer recovers the report,
or, with LEN_SAT up, the report with lower bounds for the two lengths and the rest exact (R40, R226, R233). -/
def Obligations.ReportEncodingLosesNothing : Prop :=
  (∀ r : Report, r.wellFormed = true → recoverReport (enc r) = some (retained r)) ∧
  (∀ (cfg : Config) (raw : List Byte), (validate cfg raw).wellFormed = true ∧
    (raw.length ≤ 65535 → recoverReport (enc (validate cfg raw)) = some (.exact (validate cfg raw))) ∧
    (65536 ≤ raw.length → ∃ d, validate cfg raw = .decoded d ∧
      recoverReport (enc (validate cfg raw)) = some (.lowerBounds { d with n := 65536, paylen := 65527 }))) ∧
  ∀ d : DecodedReport, 65536 ≤ d.n → 9 ≤ d.n → d.paylen = d.n - 9 → (flagsOf (enc (.decoded d))).lenSat = true ∧
    (enc (.decoded d)).s1.toNat = 65536

/-- What a consumer learns is all there is to learn, and no more than is so: among the reports a frame can have, those it
admits are exactly those the registers encode; the lengths are taken as exact only where LEN_SAT is down (R40;
70_reset_and_hazards.md R226, R233). -/
def Obligations.RecoveredAdmitsExactlyTheEncodedReports : Prop :=
  ∀ (r : Report) (v : Recovered), r.wellFormed = true → recoverReport (enc r) = some v →
    (∀ r' : Report, r'.wellFormed = true → (v.admits r' = true ↔ enc r' = enc r)) ∧
    ((∃ d, v = .lowerBounds d) ↔ (flagsOf (enc r)).lenSat = true)

/-! ## Diagnostics (60_exceptions.md) -/

/-- Each diagnostic is signalled exactly for its cause, and the registers record its values (R192 to R201). -/
def Obligations.DiagnosticsMatchTheirCauses : Prop :=
  ∀ (cfg : Config) (raw : List Byte) (r : Result), r = enc (validate cfg raw) →
    (signalled r .invalidMessage = true ↔ raw.length < 9) ∧
    (raw.length < 9 → recordedValues r .invalidMessage = [raw.length] ∧ diagnosticsOf r = [.invalidMessage]) ∧
    ∀ f, decodeFrame raw = .fields f →
      (signalled r .badStart = true ↔ f.som ≠ 0xF0#8) ∧ recordedValues r .badStart = [f.som.toNat] ∧
      (signalled r .unknownClass = true ↔ cfg.classMap f.cls = false) ∧
      recordedValues r .unknownClass = [f.cls.toNat] ∧
      (signalled r .unknownType = true ↔ cfg.typeMap f.typ = false) ∧
      recordedValues r .unknownType = [f.typ.toNat] ∧
      (signalled r .badEnd = true ↔ f.eom ≠ 0x55#8) ∧ recordedValues r .badEnd = [f.eom.toNat] ∧
      (signalled r .lengthMismatch = true ↔ f.dl.toNat ≠ raw.length) ∧
      recordedValues r .lengthMismatch = [f.dl.toNat, min raw.length 65536] ∧
      (signalled r .checksumUnavailable = true ↔ f.dl.toNat < 3 ∨ raw.length + 1 < f.dl.toNat) ∧
      recordedValues r .checksumUnavailable = [f.dl.toNat] ∧
      (signalled r .checksumMismatch = true ↔ ∃ cchk, chkOutcome raw f = .available cchk false) ∧
      (∀ cchk, chkOutcome raw f = .available cchk false →
        f.dchk ≠ cchk ∧ recordedValues r .checksumMismatch = [f.dchk.toNat, cchk.toNat]) ∧
      (signalled r .countSaturated = true ↔ 65536 ≤ raw.length) ∧
      (65536 ≤ raw.length → recordedValues r .countSaturated = [65536])

/-- The structure among diagnostics: DG1 excludes all others; DG7 and DG8 exclude each other; DG7, DG8 and DG9 each imply
DG6; DG6 alone is possible (R202 (a), (c), (d), (e)). -/
def Obligations.DiagnosticStructure : Prop :=
  (∀ (cfg : Config) (raw : List Byte) (r : Result), r = enc (validate cfg raw) →
    (signalled r .invalidMessage = true → diagnosticsOf r = [.invalidMessage]) ∧
    ¬(signalled r .checksumUnavailable = true ∧ signalled r .checksumMismatch = true) ∧
    (signalled r .checksumUnavailable = true ∨ signalled r .checksumMismatch = true ∨
      signalled r .countSaturated = true → signalled r .lengthMismatch = true)) ∧
  ∀ (cfg : Config) (kc kt : Byte), cfg.classMap kc = true → cfg.typeMap kt = true →
    ∃ raw, diagnosticsOf (enc (validate cfg raw)) = [.lengthMismatch]

/-- The four marker and code checks are independent of one another and of the length check: all combinations occur,
where each map has a known and an unknown byte (R202 (b)). -/
def Obligations.MarkerChecksAreIndependent : Prop :=
  ∀ (cfg : Config) (kc uc kt ut : Byte), cfg.classMap kc = true → cfg.classMap uc = false → cfg.typeMap kt = true →
    cfg.typeMap ut = false → ∀ som class' type' eom len : Bool, ∃ raw,
      (signalled (enc (validate cfg raw)) .invalidMessage = false) ∧
      (signalled (enc (validate cfg raw)) .badStart = som) ∧
      (signalled (enc (validate cfg raw)) .unknownClass = class') ∧
      (signalled (enc (validate cfg raw)) .unknownType = type') ∧
      (signalled (enc (validate cfg raw)) .badEnd = eom) ∧
      (signalled (enc (validate cfg raw)) .lengthMismatch = len)

/-! ## The stream against the reference functions (43_stream_ops.md R160, R175 to R178) -/

/-- What the working registers hold after the bytes of a frame: the count, the header latches, the trailing window and
the two captured bytes (10_state.md R21 to R25; 43_stream_ops.md R160). -/
def Obligations.WorkingRegistersTrackTheFrame : Prop :=
  ∀ (s : State) (ws rest : List OpWord) (raw : List Byte), s.work = State.reset.work →
    activeOps ws = raw.map .push → s.pending = ws ++ rest →
    ∃ t, runSteps ws.length s = .next t ∧
      t.work.cnt.toNat = min raw.length 65536 ∧
      (∀ k : Nat, k < 6 → k < raw.length → headerLatch t.work k = raw[k]?) ∧
      (∀ k : Nat, k < 6 → raw.length ≤ k → headerLatch t.work k = some 0) ∧
      (3 ≤ raw.length → raw[raw.length - 3]? = some t.work.tr0 ∧ raw[raw.length - 2]? = some t.work.tr1 ∧
        raw[raw.length - 1]? = some t.work.tr2) ∧
      ∀ lo hi : Byte, raw[1]? = some lo → raw[2]? = some hi →
        (9 ≤ lo.toNat + 256 * hi.toNat → lo.toNat + 256 * hi.toNat - 3 < raw.length →
          raw[lo.toNat + 256 * hi.toNat - 3]? = some t.work.capLo) ∧
        (8 ≤ lo.toNat + 256 * hi.toNat → lo.toNat + 256 * hi.toNat - 2 < raw.length →
          raw[lo.toNat + 256 * hi.toNat - 2]? = some t.work.capHi)

/-- Equivalence with the reference function: from any state with the working registers clear, any words that present the
frame `raw`, with IDLE words anywhere before the closing one, leave in the result registers the encoded report of `raw`,
the strobe up and the working registers clear (R175), on the machine and under every configuration. That the machine has then
used up exactly those listed words and drawn none is the model's choice (log 1, log 6). -/
def Obligations.ClosedFrameReportsItsBytes : Prop :=
  (∀ (s : State) (raw : List Byte) (ws rest : List OpWord), s.work = State.reset.work → PresentsFrame raw ws →
    s.pending = ws ++ rest →
    ∃ t, runSteps ws.length s = .next t ∧ t.res = enc (validate Config.chip raw) ∧
      t.rptValid = true ∧ t.work = State.reset.work ∧ t.pending = rest ∧ t.drawn = s.drawn) ∧
  ∀ (cfg : Config) (s : Block) (raw : List Byte) (ws : List OpWord), s.work = State.reset.work →
    PresentsFrame raw ws →
    (runWords cfg s ws).res = enc (validate cfg raw) ∧ (runWords cfg s ws).rptValid = true ∧
      (runWords cfg s ws).work = State.reset.work

/-- Saturation is exact: a frame of 65536 bytes or more is reported with S1, S10 and LEN_SAT at their saturated values
and every other register and flag as an unbounded counter gives; a shorter one with its exact length (R176). -/
def Obligations.SaturationIsExact : Prop :=
  ∀ (s : State) (raw : List Byte) (d : DecodedReport), s.work = workingAfter raw →
    validate Config.chip raw = .decoded d →
    ∃ t, exec .endFrame s = .next t ∧
      (65536 ≤ raw.length →
        t.res.s1.toNat = 65536 ∧ t.res.s10.toNat = 65527 ∧ (flagsOf t.res).lenSat = true ∧
        d.lenOk = false ∧ (checksumAvailBit d.chk = true ↔ 3 ≤ d.dl.toNat)) ∧
      (raw.length ≤ 65535 →
        t.res.s1.toNat = raw.length ∧ t.res.s10.toNat = raw.length - 9 ∧ (flagsOf t.res).lenSat = false) ∧
      t.res.s2 = d.dl ∧ t.res.s3 = d.som ∧ t.res.s4 = d.cls ∧ t.res.s5 = d.seq ∧ t.res.s6 = d.typ ∧
      t.res.s7 = d.dchk ∧ t.res.s8 = checksumHalf d.chk ∧ t.res.s9 = d.eom ∧
      (flagsOf t.res).done = true ∧ (flagsOf t.res).invalid = false ∧
      (flagsOf t.res).somOk = d.somOk ∧ (flagsOf t.res).classOk = d.classOk ∧ (flagsOf t.res).typeOk = d.typeOk ∧
      (flagsOf t.res).eomOk = d.eomOk ∧ (flagsOf t.res).lenOk = d.lenOk ∧
      (flagsOf t.res).chkAvail = checksumAvailBit d.chk ∧ (flagsOf t.res).chkOk = checksumOkBit d.chk

/-- Frame independence over whole runs: from any state, once a reset has been presented, the reports sampled where the
strobe is up are exactly those of the byte sequences closed, in order (R177). R177 speaks of sequences with no further
reset; that a further one drops the open frame and is no report is the model's inference from R227 (log 12), and the list
of words is the model's own (log 1). -/
def Obligations.ReportsAreTheClosedFrames : Prop :=
  ∀ (s : State) (w : OpWord) (ws rest : List OpWord), decodeWord w = .rst → s.pending = w :: ws ++ rest →
    sampledReports (stepBlocks (ws.length + 1) s) =
      (framesClosed [] ws).map fun raw => enc (validate Config.chip raw)

/-- Two equalities of programs: without its IDLE words a program leads to the same registers, the strobe apart, and the
same reports; and PUSHL is PUSH and END (R178). -/
def Obligations.IdleWordsAreTransparent : Prop :=
  (∀ (cfg : Config) (s : Block) (ws : List OpWord),
    (runWords cfg s ws).work = (runWords cfg s (ws.filter fun w => !isIdle (decodeWord w))).work ∧
    (runWords cfg s ws).res = (runWords cfg s (ws.filter fun w => !isIdle (decodeWord w))).res ∧
    sampledReports (runStates cfg s ws) =
      sampledReports (runStates cfg s (ws.filter fun w => !isIdle (decodeWord w)))) ∧
  ∀ (cfg : Config) (s : Block) (b : Byte) (p e l : OpWord), decodeWord p = .push b → decodeWord e = .endFrame →
    decodeWord l = .pushl b → runWords cfg s [l] = runWords cfg s [p, e]

/-! ## Invariants every step keeps -/

/-- The counts stay in their ranges (10_state.md R21, R29, R38). -/
def Obligations.StepKeepsRegisterRanges : Prop :=
  ∀ s t : State, RegisterRanges s.toBlock → step s = .next t → RegisterRanges t.toBlock

/-- The held report stays a legal one: registers read 0 outside their "meaningful when" condition, and inside it the
flags say the truth of the fields (10_state.md R28 to R38, R40). -/
def Obligations.StepKeepsHeldReportConsistent : Prop :=
  ∀ s t : State, ReportConsistent Config.chip s.res → step s = .next t → ReportConsistent Config.chip t.res

/-- The capture registers agree with the trailing window, and with that a report of a right length always shows an
available, valid checksum (10_state.md R23, R24; 42_checksum_core.md R144; 60_exceptions.md R202 (d)). -/
def Obligations.StepKeepsLengthForcesChecksum : Prop :=
  ∀ s t : State, WindowAgrees s.work → LengthForcesChecksum s.res → step s = .next t →
    WindowAgrees t.work ∧ LengthForcesChecksum t.res

/-- The registers are always those of a frame in progress and of a frame reported: whatever the producer presents, the
result registers hold no report or the report of some byte sequence (43_stream_ops.md R175, R177; 10_state.md R28). -/
def Obligations.StepKeepsRealReport : Prop :=
  ∀ s t : State, HoldsRealReport Config.chip s.toBlock → step s = .next t → HoldsRealReport Config.chip t.toBlock

/-- The reset state meets the four invariants. -/
def Obligations.ResetMeetsTheInvariants : Prop :=
  RegisterRanges State.reset.toBlock ∧ ReportConsistent Config.chip State.reset.res ∧ WindowAgrees State.reset.work ∧
    LengthForcesChecksum State.reset.res ∧ HoldsRealReport Config.chip State.reset.toBlock
end

