-- ==== Sys2Proof/Laws/State.lean ====
section
/-! SUPPORT. One lemma per field per update of the state, each true by `rfl`, so that no later proof unfolds a record
update. -/

namespace Sys2Proof.Machine

@[simp] theorem Working.cleared_cnt : Working.cleared.cnt = 0 := rfl
@[simp] theorem Working.cleared_hdr0 : Working.cleared.hdr0 = 0 := rfl
@[simp] theorem Working.cleared_hdr1 : Working.cleared.hdr1 = 0 := rfl
@[simp] theorem Working.cleared_hdr2 : Working.cleared.hdr2 = 0 := rfl
@[simp] theorem Working.cleared_hdr3 : Working.cleared.hdr3 = 0 := rfl
@[simp] theorem Working.cleared_hdr4 : Working.cleared.hdr4 = 0 := rfl
@[simp] theorem Working.cleared_hdr5 : Working.cleared.hdr5 = 0 := rfl
@[simp] theorem Working.cleared_tr0 : Working.cleared.tr0 = 0 := rfl
@[simp] theorem Working.cleared_tr1 : Working.cleared.tr1 = 0 := rfl
@[simp] theorem Working.cleared_tr2 : Working.cleared.tr2 = 0 := rfl
@[simp] theorem Working.cleared_capLo : Working.cleared.capLo = 0 := rfl
@[simp] theorem Working.cleared_capHi : Working.cleared.capHi = 0 := rfl
@[simp] theorem Result.cleared_s0 : Result.cleared.s0 = 0 := rfl
@[simp] theorem Result.cleared_s1 : Result.cleared.s1 = 0 := rfl
@[simp] theorem Result.cleared_s2 : Result.cleared.s2 = 0 := rfl
@[simp] theorem Result.cleared_s3 : Result.cleared.s3 = 0 := rfl
@[simp] theorem Result.cleared_s4 : Result.cleared.s4 = 0 := rfl
@[simp] theorem Result.cleared_s5 : Result.cleared.s5 = 0 := rfl
@[simp] theorem Result.cleared_s6 : Result.cleared.s6 = 0 := rfl
@[simp] theorem Result.cleared_s7 : Result.cleared.s7 = 0 := rfl
@[simp] theorem Result.cleared_s8 : Result.cleared.s8 = 0 := rfl
@[simp] theorem Result.cleared_s9 : Result.cleared.s9 = 0 := rfl
@[simp] theorem Result.cleared_s10 : Result.cleared.s10 = 0 := rfl

@[simp] theorem Block.reset_work : Block.reset.work = Working.cleared := rfl
@[simp] theorem Block.reset_res : Block.reset.res = Result.cleared := rfl
@[simp] theorem Block.reset_rptValid : Block.reset.rptValid = false := rfl
@[simp] theorem State.reset_toBlock : State.reset.toBlock = Block.reset := rfl
@[simp] theorem State.reset_toProducer : State.reset.toProducer = Producer.start := rfl
@[simp] theorem State.reset_work  : (State.reset).work = Working.cleared := rfl
@[simp] theorem State.reset_res  : (State.reset).res = Result.cleared := rfl
@[simp] theorem State.reset_rptValid  : (State.reset).rptValid = false := rfl
@[simp] theorem State.reset_pending  : (State.reset).pending = [] := rfl
@[simp] theorem State.reset_drawn  : (State.reset).drawn = 0 := rfl

@[simp] theorem rstBlock_work (s : Block) : (rstBlock s).work = Working.cleared := rfl
@[simp] theorem rstBlock_res (s : Block) : (rstBlock s).res = Result.cleared := rfl
@[simp] theorem rstBlock_rptValid (s : Block) : (rstBlock s).rptValid = false := rfl

@[simp] theorem idleBlock_work (s : Block) : (idleBlock s).work = s.work := rfl
@[simp] theorem idleBlock_res (s : Block) : (idleBlock s).res = s.res := rfl
@[simp] theorem idleBlock_rptValid (s : Block) : (idleBlock s).rptValid = false := rfl

@[simp] theorem pushBlock_work (b : Byte) (s : Block) : (pushBlock b s).work = acceptByte b s.work := rfl
@[simp] theorem pushBlock_res (b : Byte) (s : Block) : (pushBlock b s).res = s.res := rfl
@[simp] theorem pushBlock_rptValid (b : Byte) (s : Block) : (pushBlock b s).rptValid = false := rfl

@[simp] theorem closeFrame_work (cfg : Config) (s : Block) : (closeFrame cfg s).work = Working.cleared := rfl
@[simp] theorem closeFrame_res (cfg : Config) (s : Block) : (closeFrame cfg s).res = latchReport cfg s.work := rfl
@[simp] theorem closeFrame_rptValid (cfg : Config) (s : Block) : (closeFrame cfg s).rptValid = true := rfl

@[simp] theorem endBlock_work (cfg : Config) (s : Block) : (endBlock cfg s).work = Working.cleared := rfl
@[simp] theorem endBlock_res (cfg : Config) (s : Block) : (endBlock cfg s).res = latchReport cfg s.work := rfl
@[simp] theorem endBlock_rptValid (cfg : Config) (s : Block) : (endBlock cfg s).rptValid = true := rfl

@[simp] theorem pushlBlock_work (cfg : Config) (b : Byte) (s : Block) : (pushlBlock cfg b s).work = Working.cleared := rfl
@[simp] theorem pushlBlock_res (cfg : Config) (b : Byte) (s : Block) : (pushlBlock cfg b s).res = latchReport cfg (acceptByte b s.work) := rfl
@[simp] theorem pushlBlock_rptValid (cfg : Config) (b : Byte) (s : Block) : (pushlBlock cfg b s).rptValid = true := rfl

@[simp] theorem acceptByte_tr0 (b : Byte) (w : Working) : (acceptByte b w).tr0 = w.tr1 := rfl
@[simp] theorem acceptByte_tr1 (b : Byte) (w : Working) : (acceptByte b w).tr1 = w.tr2 := rfl
@[simp] theorem acceptByte_tr2 (b : Byte) (w : Working) : (acceptByte b w).tr2 = b := rfl

@[simp] theorem latchInvalid_s0 (w : Working) : (latchInvalid w).s0 = invalidStatus := rfl
@[simp] theorem latchInvalid_s1 (w : Working) : (latchInvalid w).s1 = w.cnt := rfl
@[simp] theorem latchInvalid_s2 (w : Working) : (latchInvalid w).s2 = 0 := rfl
@[simp] theorem latchInvalid_s3 (w : Working) : (latchInvalid w).s3 = 0 := rfl
@[simp] theorem latchInvalid_s4 (w : Working) : (latchInvalid w).s4 = 0 := rfl
@[simp] theorem latchInvalid_s5 (w : Working) : (latchInvalid w).s5 = 0 := rfl
@[simp] theorem latchInvalid_s6 (w : Working) : (latchInvalid w).s6 = 0 := rfl
@[simp] theorem latchInvalid_s7 (w : Working) : (latchInvalid w).s7 = 0 := rfl
@[simp] theorem latchInvalid_s8 (w : Working) : (latchInvalid w).s8 = 0 := rfl
@[simp] theorem latchInvalid_s9 (w : Working) : (latchInvalid w).s9 = 0 := rfl
@[simp] theorem latchInvalid_s10 (w : Working) : (latchInvalid w).s10 = 0 := rfl

@[simp] theorem latchDecoded_s1 (cfg : Config) (w : Working) : (latchDecoded cfg w).s1 = w.cnt := rfl
@[simp] theorem latchDecoded_s2 (cfg : Config) (w : Working) : (latchDecoded cfg w).s2 = declaredLength w := rfl
@[simp] theorem latchDecoded_s3 (cfg : Config) (w : Working) : (latchDecoded cfg w).s3 = w.hdr0 := rfl
@[simp] theorem latchDecoded_s4 (cfg : Config) (w : Working) : (latchDecoded cfg w).s4 = w.hdr3 := rfl
@[simp] theorem latchDecoded_s5 (cfg : Config) (w : Working) : (latchDecoded cfg w).s5 = w.hdr4 := rfl
@[simp] theorem latchDecoded_s6 (cfg : Config) (w : Working) : (latchDecoded cfg w).s6 = w.hdr5 := rfl
@[simp] theorem latchDecoded_s7 (cfg : Config) (w : Working) : (latchDecoded cfg w).s7 = declaredChecksum w := rfl
@[simp] theorem latchDecoded_s9 (cfg : Config) (w : Working) : (latchDecoded cfg w).s9 = w.tr2 := rfl
@[simp] theorem latchDecoded_s10 (cfg : Config) (w : Working) :
    (latchDecoded cfg w).s10 = BitVec.ofNat 17 (w.cnt.toNat - minLen) := rfl

@[simp] theorem withFetchWord_toBlock (s : State) (nbits w : Nat) : (s.withFetchWord nbits w).toBlock = s.toBlock := rfl
@[simp] theorem withFetchWord_work (s : State) (nbits w : Nat) : (s.withFetchWord nbits w).work = s.work := rfl
@[simp] theorem withFetchWord_res (s : State) (nbits w : Nat) : (s.withFetchWord nbits w).res = s.res := rfl
@[simp] theorem withFetchWord_rptValid (s : State) (nbits w : Nat) : (s.withFetchWord nbits w).rptValid = s.rptValid := rfl
@[simp] theorem withFetchWord_pending (s : State) (nbits w : Nat) :
    (s.withFetchWord nbits w).pending = BitVec.ofNat 11 (w % 2 ^ nbits) :: s.pending := rfl
@[simp] theorem withFetchWord_drawn (s : State) (nbits w : Nat) : (s.withFetchWord nbits w).drawn = s.drawn := rfl

/-- The constants of the frame as numerals (00_scope.md R7 to R9). -/
@[simp] theorem minLen_eq : minLen = 9 := rfl
@[simp] theorem hdrLen_eq : hdrLen = 6 := rfl
@[simp] theorem trlLen_eq : trlLen = 3 := rfl
@[simp] theorem cntSat_eq : cntSat = 65536 := rfl
@[simp] theorem som_eq : som = 0xF0#8 := rfl
@[simp] theorem eom_eq : eom = 0x55#8 := rfl

end Sys2Proof.Machine
end

