-- ==== Sys2Proof/Laws/Decode.lean ====
section
/-! SUPPORT. What the decoder answers on the word an operation is encoded as, port by port. -/

namespace Sys2Proof

/-- The decoder by its three control ports (30_encoding.md R77). -/
theorem decodeWord_of_rst {w : OpWord} (h : opRst w = true) : decodeWord w = .rst := by simp [decodeWord, h]

theorem decodeWord_of_ports {w : OpWord} (h : opRst w = false) :
    decodeWord w =
      match opInValid w, opInLast w with
      | false, false => .idle
      | false, true => .endFrame
      | true, false => .push (opInData w)
      | true, true => .pushl (opInData w) := by
  unfold decodeWord; rw [h]; rfl

/-- The immediate of an encoded PUSH or PUSHL is its operand (30_encoding.md R79). -/
theorem opInData_encode_push (b : Byte) : opInData (encode (.push b)) = b := by revert b; decide
theorem opInData_encode_pushl (b : Byte) : opInData (encode (.pushl b)) = b := by revert b; decide

end Sys2Proof
end

