-- ==== Sys2Proof/Laws/Flags.lean ====
section
/-! SUPPORT. The status word and its ten flags (10_state.md R28). -/

namespace Sys2Proof.Machine

/-- Reading the flags of the word they make gives them back. -/
@[simp] theorem readStatus_statusWord (f : StatusFlags) : readStatus (statusWord f) = f := by
  obtain ⟨a, b, c, d, e, g, h, i, j, k⟩ := f
  cases a <;> cases b <;> cases c <;> cases d <;> cases e <;> cases g <;> cases h <;> cases i <;> cases j <;>
    cases k <;> rfl

/-- The flags of an `Invalid` report: DONE and INVALID, every other flag 0 (10_state.md R40). -/
theorem readStatus_invalidStatus :
    readStatus invalidStatus = ⟨true, true, false, false, false, false, false, false, false, false⟩ := by decide

/-- No flag is set in a cleared status register (10_state.md R41). -/
theorem readStatus_zero :
    readStatus 0 = ⟨false, false, false, false, false, false, false, false, false, false⟩ := by decide

end Sys2Proof.Machine
end

