-- ==== Sys2Proof/Laws/Operands.lean ====
section
/-! SUPPORT. What the operand forms and the flags answer. -/

namespace Sys2Proof.Machine

/-- `le16(lo, hi) = lo + 256 * hi` (00_scope.md R13). -/
theorem le16_toNat (lo hi : Byte) : (le16 lo hi).toNat = lo.toNat + 256 * hi.toNat := by
  have hlo := lo.isLt
  rw [le16, BitVec.toNat_append, ← Nat.shiftLeft_add_eq_or_of_lt hlo, Nat.shiftLeft_eq]
  omega

/-- Equal 16-bit values are made of equal bytes. -/
theorem le16_inj (a b c d : Byte) : le16 a b = le16 c d ↔ a = c ∧ b = d := by
  constructor
  · intro h
    have h' := congrArg BitVec.toNat h
    rw [le16_toNat, le16_toNat] at h'
    have := a.isLt; have := b.isLt; have := c.isLt; have := d.isLt
    exact ⟨BitVec.eq_of_toNat_eq (by omega), BitVec.eq_of_toNat_eq (by omega)⟩
  · rintro ⟨rfl, rfl⟩; rfl

/-- The declared length of the header latches, as a number (10_state.md R24). -/
theorem declaredLength_toNat (w : Working) : (declaredLength w).toNat = w.hdr1.toNat + 256 * w.hdr2.toNat :=
  le16_toNat _ _

/-- The declared checksum of the trailing window, as a number (10_state.md R23). -/
theorem declaredChecksum_toNat (w : Working) : (declaredChecksum w).toNat = w.tr0.toNat + 256 * w.tr1.toNat :=
  le16_toNat _ _

/-- The six header latches (10_state.md R22). -/
@[simp] theorem headerLatch_zero (w : Working) : headerLatch w 0 = some w.hdr0 := rfl
@[simp] theorem headerLatch_one (w : Working) : headerLatch w 1 = some w.hdr1 := rfl
@[simp] theorem headerLatch_two (w : Working) : headerLatch w 2 = some w.hdr2 := rfl
@[simp] theorem headerLatch_three (w : Working) : headerLatch w 3 = some w.hdr3 := rfl
@[simp] theorem headerLatch_four (w : Working) : headerLatch w 4 = some w.hdr4 := rfl
@[simp] theorem headerLatch_five (w : Working) : headerLatch w 5 = some w.hdr5 := rfl

/-- There is no header latch past index 5 (10_state.md R22). -/
theorem headerLatch_past (w : Working) (k : Nat) (h : 6 ≤ k) : headerLatch w k = none := by
  obtain ⟨m, rfl⟩ := Nat.exists_eq_add_of_le' h
  rfl

/-- A mode L position past the header is served by the capture register (20_memory.md R58). -/
theorem lowByte_captured (w : Working) (h : 9 ≤ (declaredLength w).toNat) : lowByte w = w.capLo := by
  have hk : lowPosition (declaredLength w) = (((declaredLength w).toNat - 3 : Nat) : Int) := by
    unfold lowPosition; omega
  rw [lowByte, modeLByte, hk, headerLatch_past _ _ (by omega)]; rfl

theorem highByte_captured (w : Working) (h : 8 ≤ (declaredLength w).toNat) : highByte w = w.capHi := by
  have hk : highPosition (declaredLength w) = (((declaredLength w).toNat - 2 : Nat) : Int) := by
    unfold highPosition; omega
  rw [highByte, modeLByte, hk, headerLatch_past _ _ (by omega)]; rfl

/-- A mode L position inside the header is served by its latch (20_memory.md R58). -/
theorem lowByte_header (w : Working) (k : Nat) (hk : k ≤ 5) (h : (declaredLength w).toNat = k + 3) :
    some (lowByte w) = headerLatch w k := by
  have hp : lowPosition (declaredLength w) = (k : Int) := by unfold lowPosition; omega
  rw [lowByte, modeLByte, hp]
  interval_cases k <;> rfl

theorem highByte_header (w : Working) (k : Nat) (hk : k ≤ 5) (h : (declaredLength w).toNat = k + 2) :
    some (highByte w) = headerLatch w k := by
  have hp : highPosition (declaredLength w) = (k : Int) := by unfold highPosition; omega
  rw [highByte, modeLByte, hp]
  interval_cases k <;> rfl

end Sys2Proof.Machine
end

