-- ==== Sys2Proof/Laws/Ops.lean ====
section
/-! SUPPORT. What the shared operations answer, once each: taking a word, accepting a byte, the checksum core, the close. -/

namespace Sys2Proof.Machine

/-- The next word and what is left, where words are listed. -/
theorem nextWord_of_pending {p : Producer} {w : OpWord} {ws : List OpWord} (h : p.pending = w :: ws) : nextWord p = w := by
  unfold nextWord; rw [h]

theorem takeWord_of_pending {p : Producer} {w : OpWord} {ws : List OpWord} (h : p.pending = w :: ws) :
    takeWord p = { p with pending := ws } := by
  unfold takeWord; rw [h]

/-- The count after a byte, as a number (10_state.md R21). -/
theorem acceptByte_cnt_toNat (b : Byte) (w : Working) :
    (acceptByte b w).cnt.toNat = min (w.cnt.toNat + 1) 65536 := by
  simp only [acceptByte, cntSat_eq, BitVec.toNat_ofNat]
  omega

/-- Past the header, a byte leaves the declared length as it is (43_stream_ops.md R159 (b)). -/
theorem acceptByte_declaredLength (b : Byte) (w : Working) (h : 3 ≤ w.cnt.toNat) :
    declaredLength (acceptByte b w) = declaredLength w := by
  have h1 : w.cnt.toNat ≠ 1 := by omega
  have h2 : w.cnt.toNat ≠ 2 := by omega
  simp [declaredLength, acceptByte, h1, h2]

/-- Each header latch after a byte: the one the count names holds the byte, the others keep theirs (10_state.md R22). -/
theorem acceptByte_headerLatch (b : Byte) (w : Working) (k : Nat) (hk : k < 6) :
    headerLatch (acceptByte b w) k = if w.cnt.toNat = k then some b else headerLatch w k := by
  interval_cases k <;> simp only [Nat.cast_ofNat, Nat.cast_zero, Nat.cast_one, headerLatch_zero, headerLatch_one,
    headerLatch_two, headerLatch_three, headerLatch_four, headerLatch_five, acceptByte] <;> split <;> rfl

/-- The capture registers after a byte (10_state.md R24). -/
theorem acceptByte_capLo (b : Byte) (w : Working) :
    (acceptByte b w).capLo =
      if 6 ≤ w.cnt.toNat ∧ w.cnt.toNat + 3 = (declaredLength w).toNat then b else w.capLo := rfl

theorem acceptByte_capHi (b : Byte) (w : Working) :
    (acceptByte b w).capHi =
      if 6 ≤ w.cnt.toNat ∧ w.cnt.toNat + 2 = (declaredLength w).toNat then b else w.capHi := rfl

/-- Availability as a range (42_checksum_core.md R138). -/
theorem checksumAvailable_iff (n : Count) (dl : Half) :
    checksumAvailable n dl = true ↔ 3 ≤ dl.toNat ∧ dl.toNat ≤ n.toNat + 1 := by
  simp [checksumAvailable]

/-- A close of fewer than 9 bytes (43_stream_ops.md R165). -/
theorem latchReport_short (cfg : Config) (w : Working) (h : w.cnt.toNat < 9) : latchReport cfg w = latchInvalid w := by
  simp [latchReport, h]

/-- A close of 9 bytes or more (43_stream_ops.md R165). -/
theorem latchReport_long (cfg : Config) (w : Working) (h : 9 ≤ w.cnt.toNat) :
    latchReport cfg w = latchDecoded cfg w := by
  simp [latchReport, Nat.not_lt.mpr h]

/-- The flags a close latches for a frame of 9 bytes or more (43_stream_ops.md R165). -/
theorem flagsOf_latchDecoded (cfg : Config) (w : Working) :
    flagsOf (latchDecoded cfg w) =
      { done := true
        invalid := false
        somOk := w.hdr0 == 0xF0#8
        classOk := cfg.classMap w.hdr3
        typeOk := cfg.typeMap w.hdr5
        eomOk := w.tr2 == 0x55#8
        lenOk := decide ((declaredLength w).toNat = w.cnt.toNat)
        chkAvail := checksumAvailable w.cnt (declaredLength w)
        chkOk := if checksumAvailable w.cnt (declaredLength w) then
          decide (declaredChecksum w = le16 (lowByte w) (highByte w)) else false
        lenSat := decide (w.cnt.toNat = 65536) } :=
  (readStatus_statusWord _).trans rfl

/-- The computed checksum a close latches (43_stream_ops.md R165). -/
theorem latchDecoded_s8 (cfg : Config) (w : Working) :
    (latchDecoded cfg w).s8 =
      if checksumAvailable w.cnt (declaredLength w) then le16 (lowByte w) (highByte w) else 0 := rfl

/-- The flags a close latches for a frame shorter than 9 bytes (60_exceptions.md R191). -/
theorem flagsOf_latchInvalid (w : Working) :
    flagsOf (latchInvalid w) = ⟨true, true, false, false, false, false, false, false, false, false⟩ :=
  readStatus_invalidStatus

/-- No flag is set where no report is held (10_state.md R41). -/
theorem flagsOf_cleared :
    flagsOf Result.cleared = ⟨false, false, false, false, false, false, false, false, false, false⟩ := readStatus_zero

end Sys2Proof.Machine
end

