-- ==== Sys2Proof/Laws/PerInstr.lean ====
section
/-! SUPPORT. Families of statements made once per operation, about the operation as syntax. -/

namespace Sys2Proof.Laws

/-- The canonical word of an operation belongs to the operation's row of the table of 30_encoding.md R77, to no other
row, and the row is named in the table; the word's data bits are the operand, or zero. -/
def RowOfEncoding.Statement (i : Instr) : Prop :=
  opTable.filter (fun r => r.selects (encode i)) = [i.row] ∧ opInData (encode i) = i.operand.getD 0

theorem RowOfEncoding.rst : RowOfEncoding.Statement .rst := by unfold RowOfEncoding.Statement; decide

theorem RowOfEncoding.idle : RowOfEncoding.Statement .idle := by unfold RowOfEncoding.Statement; decide

theorem RowOfEncoding.endFrame : RowOfEncoding.Statement .endFrame := by unfold RowOfEncoding.Statement; decide

theorem RowOfEncoding.push (b : Byte) : RowOfEncoding.Statement (.push b) := by
  unfold RowOfEncoding.Statement
  revert b
  decide

theorem RowOfEncoding.pushl (b : Byte) : RowOfEncoding.Statement (.pushl b) := by
  unfold RowOfEncoding.Statement
  revert b
  decide

end Sys2Proof.Laws
end

