-- ==== Sys2Proof/Laws/Reference.lean ====
section
/-! SUPPORT. What the reference functions answer, once each (files 40 to 42 of the spec). -/

namespace Sys2Proof.Machine

/-- A read at a natural index (00_scope.md R13). -/
@[simp] theorem frameRead_nat (raw : List Byte) (k : Nat) : frameRead raw (k : Int) = raw[k]? := rfl

/-- A read at a negative index has no value (20_memory.md R59). -/
theorem frameRead_negative (raw : List Byte) (k : Int) (h : k < 0) : frameRead raw k = none := by
  cases k with
  | ofNat n => exact absurd h (Int.not_lt.mpr (Int.natCast_nonneg n))
  | negSucc n => rfl

/-- The report of a short frame (40_frame_decode.md R100). -/
theorem validate_short (cfg : Config) (raw : List Byte) (h : raw.length < 9) :
    validate cfg raw = .invalid ⟨raw.length, h⟩ := by
  simp [validate, decodeFrame, h]

/-- The decoder past the gate (40_frame_decode.md R111). -/
theorem decodeFrame_long (raw : List Byte) (h : 9 ≤ raw.length) :
    decodeFrame raw = .fields
      { n := raw.length
        som := raw[0]
        dl := le16 raw[1] raw[2]
        cls := raw[3]
        seq := raw[4]
        typ := raw[5]
        paylen := raw.length - 9
        dchk := le16 raw[raw.length - 3] raw[raw.length - 2]
        eom := raw[raw.length - 1] } := by
  simp [decodeFrame, Nat.not_lt.mpr h]

/-- The report of what the decoder extracted (42_checksum_core.md R147). -/
theorem validate_of_fields {raw : List Byte} {f : Fields} (cfg : Config) (h : decodeFrame raw = .fields f) :
    validate cfg raw = .decoded (reportOf f (checkFields cfg f) (chkFrame raw f)) := by
  simp [validate, h]

/-- The checksum outcome where both positions have a byte (42_checksum_core.md R137). -/
theorem chkOutcome_available {raw : List Byte} {f : Fields} {lo hi : Byte}
    (hlo : frameRead raw (lowPosition f.dl) = some lo) (hhi : frameRead raw (highPosition f.dl) = some hi) :
    chkOutcome raw f = .available (le16 lo hi) (decide (f.dchk = le16 lo hi)) := by
  simp only [chkOutcome, hlo, hhi]

/-- The checksum outcome where the low position has none (42_checksum_core.md R139). -/
theorem chkOutcome_low_none {raw : List Byte} {f : Fields} (h : frameRead raw (lowPosition f.dl) = none) :
    chkOutcome raw f = .unavailable := by
  unfold chkOutcome; rw [h]

/-- The checksum outcome where the high position has none (42_checksum_core.md R139). -/
theorem chkOutcome_high_none {raw : List Byte} {f : Fields} (h : frameRead raw (highPosition f.dl) = none) :
    chkOutcome raw f = .unavailable := by
  unfold chkOutcome; rw [h]; split <;> simp_all

/-- The flags an encoded report of 9 bytes or more holds (10_state.md R40). -/
theorem flagsOf_encDecoded (d : DecodedReport) :
    flagsOf (encDecoded d) =
      { done := true
        invalid := false
        somOk := d.somOk
        classOk := d.classOk
        typeOk := d.typeOk
        eomOk := d.eomOk
        lenOk := d.lenOk
        chkAvail := checksumAvailBit d.chk
        chkOk := checksumOkBit d.chk
        lenSat := decide (65536 ≤ d.n) } :=
  (readStatus_statusWord _).trans rfl

/-- The flags an encoded `Invalid` report holds (10_state.md R40). -/
theorem flagsOf_enc_invalid (n : Fin 9) :
    flagsOf (enc (.invalid n)) = ⟨true, true, false, false, false, false, false, false, false, false⟩ :=
  readStatus_invalidStatus

/-- What a consumer reads of the registers of an encoded report of 9 bytes or more: the report, its lengths saturated
(10_state.md R40). -/
theorem readDecoded_encDecoded (d : DecodedReport) :
    readDecoded (encDecoded d) = { d with n := min d.n 65536, paylen := min d.n 65536 - 9 } := by
  have hf := flagsOf_encDecoded d
  have h1 : (encDecoded d).s1.toNat = min d.n 65536 := by simp [encDecoded, saturatedCount]
  have h10 : (encDecoded d).s10.toNat = min d.n 65536 - 9 := by simp [encDecoded]; omega
  have hc : recoverChecksum (encDecoded d) = d.chk := by
    simp only [recoverChecksum, hf]
    cases h : d.chk <;> simp [encDecoded, h, checksumAvailBit, checksumOkBit, checksumHalf]
  simp only [readDecoded, hf, h1, h10, hc]
  rfl

/-- What a consumer recovers where `DONE = 1` and `INVALID = 0`: `LEN_SAT` decides whether the lengths are exact
(70_reset_and_hazards.md R226). -/
theorem recoverReport_decoded {r : Result} (hd : (flagsOf r).done = true) (hi : (flagsOf r).invalid = false) :
    recoverReport r =
      some (if (flagsOf r).lenSat then .lowerBounds (readDecoded r) else .exact (.decoded (readDecoded r))) := by
  simp only [recoverReport, hd, hi, if_true, Bool.false_eq_true, if_false]
  split <;> rfl

/-- What the registers retain of a report of 9 bytes or more: the whole of it up to 65535 bytes, lower bounds of its two
lengths from 65536 on (70_reset_and_hazards.md R233). -/
theorem retained_exact (d : DecodedReport) (h : d.n ≤ 65535) : retained (.decoded d) = .exact (.decoded d) := by
  simp only [retained]; exact if_neg (by omega)

theorem retained_lowerBounds (d : DecodedReport) (h : 65536 ≤ d.n) :
    retained (.decoded d) = .lowerBounds { d with n := 65536, paylen := 65527 } := by
  simp only [retained]; exact if_pos h

end Sys2Proof.Machine
end

