-- ==== Sys2Proof/Laws/Step.lean ====
section
/-! SUPPORT. What one step can do, once: every operation answers the state `perform` gives, so a step is the reference
step of 43_stream_ops.md R155 on the word taken. -/

namespace Sys2Proof.Machine

/-- Every operation answers a next state: the registers `perform` gives, the producer's side as it was (43_stream_ops.md
R171; log 6). -/
theorem exec_eq_perform (i : Instr) (s : State) :
    exec i s = .next { s with toBlock := perform Config.chip i s.toBlock } := by cases i <;> rfl

/-- A step is the reference step on the registers and the word taken (43_stream_ops.md R155). -/
theorem step_eq (s : State) :
    step s = .next ⟨stepWord Config.chip s.toBlock (nextWord s.toProducer), takeWord s.toProducer⟩ :=
  exec_eq_perform _ _

/-- The next state of a step, where it answers one: the only case there is. -/
theorem step_next {s t : State} (h : step s = .next t) :
    t = ⟨stepWord Config.chip s.toBlock (nextWord s.toProducer), takeWord s.toProducer⟩ := by
  rw [step_eq] at h; cases h; rfl

/-- A step on a listed word (log 1). -/
theorem step_of_pending {s : State} {w : OpWord} {ws : List OpWord} (h : s.pending = w :: ws) :
    step s = .next ⟨stepWord Config.chip s.toBlock w, { s.toProducer with pending := ws }⟩ := by
  rw [step_eq, nextWord_of_pending h, takeWord_of_pending h]

/-- The working registers after an operation: what they hold depends on the operation and on them alone
(10_state.md R42). -/
theorem perform_work (cfg : Config) (i : Instr) (s : Block) :
    (perform cfg i s).work =
      match i with
      | .rst => Working.cleared
      | .idle => s.work
      | .endFrame => Working.cleared
      | .push b => acceptByte b s.work
      | .pushl _ => Working.cleared := by
  cases i <;> rfl

/-- The result registers after an operation: written by a close, cleared by RST, else kept (10_state.md R27). -/
theorem perform_res (cfg : Config) (i : Instr) (s : Block) :
    (perform cfg i s).res =
      match i with
      | .rst => Result.cleared
      | .idle => s.res
      | .endFrame => latchReport cfg s.work
      | .push _ => s.res
      | .pushl b => latchReport cfg (acceptByte b s.work) := by
  cases i <;> rfl

/-- The strobe after an operation: up after a close, else down (10_state.md R39). -/
theorem perform_rptValid (cfg : Config) (i : Instr) (s : Block) : (perform cfg i s).rptValid = isClose i := by
  cases i <;> rfl

/-- An invariant of the registers is kept by every step when each operation keeps it: the producer's side is no part of
it. -/
theorem step_keeps {P : Working → Result → Prop} (hclear : P Working.cleared Result.cleared)
    (hpush : ∀ b w r, P w r → P (acceptByte b w) r)
    (hclose : ∀ w r, P w r → P Working.cleared (latchReport Config.chip w))
    {s t : State} (hs : P s.work s.res) (h : step s = .next t) : P t.work t.res := by
  rw [step_next h, stepWord, perform_work, perform_res]
  cases decodeWord (nextWord s.toProducer) with
  | rst => exact hclear
  | idle => simpa using hs
  | endFrame => simpa using hclose _ _ hs
  | push b => simpa using hpush b _ _ hs
  | pushl b => simpa using hclose _ _ (hpush b _ _ hs)

/-- A run of no step, and of one step more. -/
theorem runSteps_zero (s : State) : runSteps 0 s = .next s := rfl

theorem runSteps_succ {s t : State} (k : Nat) (h : step s = .next t) : runSteps (k + 1) s = runSteps k t := by
  have e : Sys2Proof.core.step s = .next t := h
  exact (Host.Core.run.eq_def Sys2Proof.core (k + 1) s).trans (by simp only [e]; rfl)

/-- A run on no word, on one word more, and on two sequences one after the other (43_stream_ops.md R155). -/
@[simp] theorem runWords_nil (cfg : Config) (s : Block) : runWords cfg s [] = s := rfl

@[simp] theorem runWords_cons (cfg : Config) (s : Block) (w : OpWord) (ws : List OpWord) :
    runWords cfg s (w :: ws) = runWords cfg (stepWord cfg s w) ws := rfl

theorem runWords_append (cfg : Config) (s : Block) (ws vs : List OpWord) :
    runWords cfg s (ws ++ vs) = runWords cfg (runWords cfg s ws) vs := by
  simp [runWords]

end Sys2Proof.Machine
end

