-- ==== Sys2Proof/Tests/Slice0.lean ====
section
/-! SUPPORT. The model's own tests: the smoke tests of well-formedness, words written out from the encoding, the vectors
of 95_test_vectors.md one step or one function at a time, and a witness for the hypotheses of every statement. Expected
values are the spec's; each test names its vector. -/

namespace Sys2Proof.Tests

open Sys2Proof.Machine

/-- The example configuration `CFG_EX` of decision D19: classes 0x01 and 0x02, type 0x03. Tests only. -/
def cfgEx : Config where
  classMap c := c == 0x01 || c == 0x02
  typeMap t := t == 0x03

/-- Working registers from their values. -/
def working (cnt : Count) (h0 h1 h2 h3 h4 h5 t0 t1 t2 lo hi : Byte) : Working :=
  ⟨cnt, h0, h1, h2, h3, h4, h5, t0, t1, t2, lo, hi⟩

/-- A state with the given working registers, no report held and no word listed. -/
def holding (w : Working) : State := { State.reset with work := w }

/-- A state with the reset registers and the given words listed. -/
def presenting (ws : List OpWord) : State := { State.reset with pending := ws }

/-- The registers after the first eight bytes of vector S2, `F0 09 00 01 00 03 AA BB`. -/
def eightOfS2 : Working := working 8 0xF0 0x09 0x00 0x01 0x00 0x03 0x03 0xAA 0xBB 0xAA 0xBB

/-- A nine-byte frame in the registers, with declared length `lo + 256 * hi`. -/
def nineBytes (lo hi : Byte) : Working := working 9 0xF0 lo hi 0x01 0x00 0x03 0xAA 0xBB 0x55 0x11 0x22

/-- The next state of an outcome, if it is one. -/
def nextOf (o : Host.Outcome State Fault Refusal) : Option State :=
  match o with
  | .next s => some s
  | .fault _ => none
  | .refused _ => none

/-! ### Well-formedness: a term each check refuses -/

theorem test_ill_wide_word : isOpWord 2048 = false := by decide
theorem test_ill_wide_word_decode : decodeNat 2048 = .error (.widerThanElevenBits 2048) := by decide
theorem test_ill_wide_word_table : decodeTableWord 16 0x800 = none := by decide
theorem test_ill_push_numeral : (AsmLine.push 256).wellFormed = false ∧ assemble (.push 256) = none := by decide
theorem test_ill_pushl_numeral : (AsmLine.pushl 256).wellFormed = false ∧ assemble (.pushl 256) = none := by decide
theorem test_ill_frame_odd : (AsmLine.frame ['F', '0', '5']).wellFormed = false := by decide
theorem test_ill_frameX_character : (AsmLine.frameX ['F', 'G']).wellFormed = false := by decide
theorem test_ill_frame_space_in_pair : (AsmLine.frame ['F', ' ', '0', '5']).wellFormed = false := by decide
theorem test_ill_trace_space : (AsmLine.trace ['s'] ['F', '0', ' ', '5', '5'] ['t']).wellFormed = false := by decide
theorem test_ill_trace_direction : (AsmLine.trace [] ['F', '0'] ['t']).wellFormed = false := by decide
theorem test_ill_trace_timestamp : (AsmLine.trace ['s'] ['F', '0'] []).wellFormed = false := by decide

/-! ### Decoding: words written out from 30_encoding.md R77 and 95_test_vectors.md section 6.1 -/

theorem test_decode_rst : decodeWord 0b10000000000#11 = .rst ∧ decodeWord 0x655 = .rst ∧ decodeWord 0x555 = .rst := by
  decide
theorem test_decode_idle : decodeWord 0b00011111111#11 = .idle := by decide
theorem test_decode_end : decodeWord 0b00111110000#11 = .endFrame := by decide
theorem test_decode_push : decodeWord 0b01011110000#11 = .push 0xF0 := by decide
theorem test_decode_pushl : decodeWord 0b01101010101#11 = .pushl 0x55 := by decide
theorem test_decode_table_word : decodeTableWord 16 0x355 = some (.pushl 0x55) := by decide

/-! ### One step of each operation (95_test_vectors.md section 6.2) -/

/-- O2: RST in mid-frame. -/
theorem test_rst_o2 : nextOf (exec .rst (holding (working 2 0xF0 0x09 0 0 0 0 0 0xF0 0x09 0 0))) = some State.reset := by
  decide

/-- The host's question for RST: the word is fetched and run. -/
theorem test_rst_fetched : nextOf (step (State.reset.withFetchWord 16 0x7FF)) = some State.reset := by decide

/-- O3, with the strobe up before: IDLE lowers it and keeps the registers. -/
theorem test_idle_o3 :
    nextOf (exec .idle { holding (working 1 0xF0 0 0 0 0 0 0 0 0xF0 0 0) with rptValid := true })
      = some (holding (working 1 0xF0 0 0 0 0 0 0 0 0xF0 0 0)) := by decide

/-- O10: the sixth header byte is latched and nothing captured, though `dl = 9`. -/
theorem test_push_o10 :
    nextOf (exec (.push 0x03) (holding (working 5 0xF0 0x09 0 0x01 0 0 0 0x01 0 0 0)))
      = some (holding (working 6 0xF0 0x09 0 0x01 0 0x03 0x01 0 0x03 0 0)) := by decide

/-- O11: at saturation only the trailing window moves. -/
theorem test_push_o11 :
    nextOf (exec (.push 0xAB) (holding (working 65536 0 0xFF 0xFF 0 0 0 1 2 3 0x15 0xCC)))
      = some (holding (working 65536 0 0xFF 0xFF 0 0 0 2 3 0xAB 0x15 0xCC)) := by decide

/-- The trace of vector S2: the byte at index 6 is captured (`6 + 3 = 9`), not the one at index 8. -/
theorem test_push_captures_s2 :
    (acceptByte 0xAA (working 6 0xF0 0x09 0 1 0 3 1 0 3 0 0)).capLo = 0xAA ∧
    (acceptByte 0xBB (working 7 0xF0 0x09 0 1 0 3 0 3 0xAA 0xAA 0)).capHi = 0xBB ∧
    (acceptByte 0x55 eightOfS2).capLo = 0xAA := by decide

/-- O8: END from reset reports the empty frame. -/
theorem test_end_o8 :
    nextOf (exec .endFrame State.reset)
      = some { State.reset with res := { Result.cleared with s0 := 0x003 }, rptValid := true } := by decide

/-- O13: END at three bytes. -/
theorem test_end_o13 :
    (nextOf (exec .endFrame (holding (working 3 0x11 0x22 0x33 0 0 0 0x11 0x22 0x33 0 0)))).map (·.res)
      = some { Result.cleared with s0 := 0x003, s1 := 3 } := by decide

/-- O9: PUSHL from reset closes a frame of one byte. -/
theorem test_pushl_o9 :
    (nextOf (exec (.pushl 0x55) State.reset)).map (·.res) = some { Result.cleared with s0 := 0x003, s1 := 1 } := by
  decide

/-- The last step of vector S2. -/
theorem test_pushl_s2 :
    pushlBlock cfgEx 0x55 (holding eightOfS2).toBlock =
      { work := Working.cleared
        res := ⟨0b0111111101, 9, 0x0009, 0xF0, 0x01, 0x00, 0x03, 0xBBAA, 0xBBAA, 0x55, 0⟩
        rptValid := true } := by decide

/-! ### The close at the boundaries of its clauses -/

/-- 8 bytes are invalid, 9 are decoded (A3, S2). -/
theorem test_close_gate :
    (latchReport cfgEx eightOfS2).s0 = 0x003 ∧ (latchReport cfgEx (acceptByte 0x55 eightOfS2)).s0 = 0x1FD := by decide

/-- Availability: `dl = 2` is unavailable, 3 is available, `n + 1 = 10` is, `n + 2 = 11` is not (C2, C3, C13, C14). -/
theorem test_close_availability :
    (flagsOf (latchReport cfgEx (nineBytes 2 0))).chkAvail = false ∧
    (flagsOf (latchReport cfgEx (nineBytes 3 0))).chkAvail = true ∧
    (flagsOf (latchReport cfgEx (nineBytes 10 0))).chkAvail = true ∧
    (flagsOf (latchReport cfgEx (nineBytes 11 0))).chkAvail = false := by decide

/-- The byte sources at `dl = 8` (C8): `hdr5` for the low byte, `cap_hi` for the high one; at 9 both captured. -/
theorem test_close_sources :
    (latchReport cfgEx (nineBytes 8 0)).s8 = 0x2203 ∧ (latchReport cfgEx (nineBytes 9 0)).s8 = 0x2211 := by decide

/-- Saturation (L2): 65536 bytes, `dl = 65535`. -/
theorem test_close_saturated :
    latchReport cfgEx (working 65536 0xF0 0xFF 0xFF 0x01 0 0x03 0xCC 0xDD 0x55 0x15 0xCC) =
      ⟨0b1010111101, 65536, 0xFFFF, 0xF0, 0x01, 0x00, 0x03, 0xDDCC, 0xCC15, 0x55, 65527⟩ := by decide

/-! ### The reference functions and the core (95_test_vectors.md sections 1 to 5) -/

/-- S1, the source's scenario. -/
theorem test_validate_s1 :
    validate cfgEx [0xF0, 0x06, 0x00, 0x01, 0x00, 0x03, 0xAA, 0xBB, 0x55] =
      .decoded ⟨9, 0xF0, 6, 0x01, 0x00, 0x03, 0, 0xBBAA, 0x55, true, true, true, true, false,
        .available 0x0001 false⟩ := by decide

/-- S1 in the registers, with its diagnostics DG6 and DG8. -/
theorem test_enc_s1 :
    (enc (validate cfgEx [0xF0, 0x06, 0x00, 0x01, 0x00, 0x03, 0xAA, 0xBB, 0x55])).s0 = 0x0BD ∧
    diagnosticsOf (enc (validate cfgEx [0xF0, 0x06, 0x00, 0x01, 0x00, 0x03, 0xAA, 0xBB, 0x55]))
      = [.lengthMismatch, .checksumMismatch] := by decide

/-- A3: the longest invalid frame, `dl = 8 = N`. -/
theorem test_validate_a3 :
    validate cfgEx [0xF0, 0x08, 0x00, 0x01, 0x00, 0x03, 0xAA, 0x55] = .invalid 8 := by decide

/-- A4: one payload byte, little-endian checksum. -/
theorem test_enc_a4 :
    enc (validate cfgEx [0xF0, 0x0A, 0x00, 0x02, 0x07, 0x03, 0x5A, 0x34, 0x12, 0x55]) =
      ⟨0x1FD, 10, 0x000A, 0xF0, 0x02, 0x07, 0x03, 0x1234, 0x1234, 0x55, 1⟩ := by decide

/-- A5: the declared length is little-endian and past the frame. -/
theorem test_enc_a5 :
    enc (validate cfgEx [0xF0, 0x34, 0x12, 0x01, 0x00, 0x03, 0xAA, 0xBB, 0x55]) =
      ⟨0x03D, 9, 0x1234, 0xF0, 0x01, 0x00, 0x03, 0xBBAA, 0, 0x55, 0⟩ := by decide

/-- B5: all four checks fail at once, length and checksum pass. -/
theorem test_enc_b5 :
    enc (validate cfgEx [0x55, 0x09, 0x00, 0x00, 0x00, 0x00, 0xAA, 0xBB, 0xF0]) =
      ⟨0x1C1, 9, 0x0009, 0x55, 0x00, 0x00, 0x00, 0xBBAA, 0xBBAA, 0xF0, 0⟩ := by decide

/-- C2 and C14: unavailable at `dl = 2` and at `dl = N + 2`, with no wrap and no half of a checksum. -/
theorem test_enc_c2_c14 :
    (enc (validate cfgEx [0xF0, 2, 0, 0x01, 0x05, 0x03, 0x11, 0x22, 0x33, 0x34, 0x12, 0x55])).s0 = 0x03D ∧
    (enc (validate cfgEx [0xF0, 14, 0, 0x01, 0x05, 0x03, 0x11, 0x22, 0x33, 0x34, 0x12, 0x55])).s0 = 0x03D := by decide

/-- C3, C8 and C13: the computed checksum at the two ends of the available range and across the header's end. -/
theorem test_enc_c3_c8_c13 :
    (enc (validate cfgEx [0xF0, 3, 0, 0x01, 0x05, 0x03, 0x11, 0x22, 0x33, 0x34, 0x12, 0x55])).s8 = 0x03F0 ∧
    (enc (validate cfgEx [0xF0, 8, 0, 0x01, 0x05, 0x03, 0x11, 0x22, 0x33, 0x34, 0x12, 0x55])).s8 = 0x1103 ∧
    (enc (validate cfgEx [0xF0, 13, 0, 0x01, 0x05, 0x03, 0x11, 0x22, 0x33, 0x34, 0x12, 0x55])).s8 = 0x5512 := by decide

/-- C16: a valid checksum beside a wrong length, DG6 only. -/
theorem test_enc_c16 :
    (enc (validate cfgEx [0xF0, 10, 0, 0x01, 0x05, 0x03, 0x11, 0x34, 0x12, 0x34, 0x12, 0x55])).s0 = 0x1BD := by decide

/-- K4, K6, K10 and K12 of the core. -/
theorem test_core_k4 : chkCore 9 0 0x0000 0x00 0x00 = ⟨false, false, 0, false⟩ := by decide
theorem test_core_k6 : chkCore 9 10 0x55AA 0x55 0x55 = ⟨false, true, 0x5555, false⟩ := by decide
theorem test_core_k10 : chkCore 65536 65535 0xDDCC 0x15 0xCC = ⟨false, true, 0xCC15, false⟩ := by decide
theorem test_core_k12 : chkCore 0 0 0x0000 0x00 0x00 = ⟨true, false, 0, false⟩ := by decide

/-- The consumer's reading: no report after reset, the report after S2, and no number for an unavailable checksum. -/
theorem test_recover_reset : recoverReport State.reset.res = none := by decide
theorem test_recover_a5 :
    recoverReport ⟨0x03D, 9, 0x1234, 0xF0, 0x01, 0x00, 0x03, 0xBBAA, 0, 0x55, 0⟩ =
      some (.exact (.decoded ⟨9, 0xF0, 0x1234, 0x01, 0x00, 0x03, 0, 0xBBAA, 0x55, true, true, true, true, false,
        .unavailable⟩)) := by decide

/-- L3: `LEN_SAT` is up, so the two lengths are lower bounds. -/
theorem test_recover_l3 :
    recoverReport ⟨0x23D, 65536, 0, 0xF0, 0x01, 0x00, 0x03, 0xDDCC, 0, 0x55, 65527⟩ =
      some (.lowerBounds ⟨65536, 0xF0, 0, 0x01, 0x00, 0x03, 65527, 0xDDCC, 0x55, true, true, true, true, false,
        .unavailable⟩) := by decide

/-- A valid frame has none of DG2 to DG9 (S2). -/
theorem test_valid_frame :
    isValidFrame ⟨0x1FD, 9, 0x0009, 0xF0, 0x01, 0x00, 0x03, 0xBBAA, 0xBBAA, 0x55, 0⟩ = true := by decide

/-! ### Assembly text (30_encoding.md R91, R92) -/

theorem test_parse_push :
    parseLine [' ', 'P', 'U', 'S', 'H', ' ', '0', 'x', 'f', '0', ' ', ';', 'x'] = some (.push 0xF0) := by decide
theorem test_parse_frame :
    (parseLine ['F', 'R', 'A', 'M', 'E', ' ', 'F', '0', ' ', '5', '5']).bind assemble = some [0x2F0, 0x355] := by decide
theorem test_parse_empty_frame : (parseLine ['F', 'R', 'A', 'M', 'E']).bind assemble = some [0x100] := by decide
theorem test_parse_trace :
    (parseTraceLine ['s', ' ', 'F', '0', '5', '5', ' ', '1']).bind assemble = some [0x2F0, 0x355] := by decide
theorem test_parse_comment : parseTraceLine ['#', ' ', 'F', '0'] = some .nothing := by decide

/-- The model's choices of log 9 in the trace notation: a blank line is refused, and `#` after white space is a field. -/
theorem test_parse_trace_choices :
    parseTraceLine [] = none ∧ parseTraceLine [' '] = none ∧
    parseTraceLine [' ', '#', ' ', 'F', '0', ' ', '1', ';'] = some (.trace ['#'] ['F', '0'] ['1', ';']) := by decide

/-! ### Witnesses: the hypotheses of each statement, met together -/

theorem witness_EncodeThenDecode : (Instr.push 0xFF).wellFormed = true ∧ 11 ≤ 16 := by decide

theorem witness_DecodeFollowsTable :
    0x7FF#11 &&& 0x400#11 = 0x400#11 ∧ 0x0FF#11 &&& 0x700#11 = 0x000#11 ∧ 0x1FF#11 &&& 0x700#11 = 0x100#11 ∧
    0x2FF#11 &&& 0x700#11 = 0x200#11 ∧ 0x3FF#11 &&& 0x700#11 = 0x300#11 := by decide

theorem witness_IgnoredBitsHaveNoEffect :
    (0x400#11 ^^^ 0x7FF#11) &&& readBits 0x400#11 = 0#11 ∧ (0x100#11 ^^^ 0x1FF#11) &&& readBits 0x100#11 = 0#11 := by
  decide

theorem witness_StepRunsTheDecodedOperation :
    (presenting [0x2F0]).pending = 0x2F0 :: [] ∧ State.reset.pending = [] := by decide

/-- Two states that differ on the producer's side and agree on the registers and the next word; and two the other way. -/
theorem witness_RegistersAloneAreTheBlockState :
    (∃ s s' t t' : State, s ≠ s' ∧ s.toBlock = s'.toBlock ∧ nextWord s.toProducer = nextWord s'.toProducer ∧
      step s = .next t ∧ step s' = .next t') ∧
    ∃ s s' t t' : State, s ≠ s' ∧ s.toProducer = s'.toProducer ∧ step s = .next t ∧ step s' = .next t' :=
  ⟨⟨presenting [0x100], presenting [0x100, 0x2F0], _, _, by decide, rfl, rfl, step_eq _, step_eq _⟩,
    State.reset, holding eightOfS2, _, _, by decide, rfl, step_eq _, step_eq _⟩

theorem witness_MachineRunsTheReferenceStep : (presenting [0x2F0, 0x355, 0x000]).pending = [0x2F0, 0x355] ++ [0x000] := by
  decide

theorem witness_ResetClearsEveryRegister : (0x400#11).getLsbD 10 = true := by decide
theorem witness_IdleOnlyLowersTheStrobe : (0x0FF#11).extractLsb' 8 3 = 0b000#3 := by decide
theorem witness_PushTransfersRegisters :
    (0x2FF#11).extractLsb' 8 3 = 0b010#3 ∧ (working 65536 0 0 0 0 0 0 0 0 0 0 0).cnt.toNat = 65536 := by decide

theorem witness_EndClosesTheFrame :
    (0x1FF#11).extractLsb' 8 3 = 0b001#3 ∧ eightOfS2.cnt.toNat < 9 ∧ 9 ≤ (nineBytes 10 0).cnt.toNat ∧
    headerLatch (nineBytes 8 0) ((8 - 3 : Nat) : Int) = some 0x03 ∧
    (10 = (nineBytes 10 0).hdr1.toNat + 256 * (nineBytes 10 0).hdr2.toNat) := by decide

theorem witness_PushlIsPushThenEnd : (0x3FF#11).extractLsb' 8 3 = 0b011#3 := by decide

theorem witness_PushlByteIsTheEndMarker :
    (working 7 0 0 0 0 0 0 0 0 0 0 0).cnt.toNat < 8 ∧ 8 ≤ eightOfS2.cnt.toNat := by decide

theorem witness_StrobeMarksCloses : ∃ t, step (presenting [0x100]) = .next t := ⟨_, step_eq _⟩

theorem witness_OnlyClosesAndResetWriteResults :
    ∃ t, step (presenting [0x100]) = .next t ∧ t.res ≠ (presenting [0x100]).res :=
  ⟨_, step_eq _, by decide⟩

theorem witness_CounterMovesAsTheOperationSays :
    ∃ t, step (presenting [0x2F0]) = .next t ∧ decodeWord (nextWord (presenting [0x2F0]).toProducer) = .push 0xF0 :=
  ⟨_, step_eq _, by decide⟩

theorem witness_CloseLeavesTheResetWorkingState :
    ∃ t, step (presenting [0x355]) = .next t ∧ t.rptValid = true := ⟨_, step_eq _, by decide⟩

theorem witness_ReportIgnoresHistory :
    ∃ s s' t t' : State, s ≠ s' ∧ s.work = s'.work ∧ nextWord s.toProducer = nextWord s'.toProducer ∧ step s = .next t ∧ step s' = .next t' ∧
      t.rptValid = true :=
  ⟨presenting [0x100], { presenting [0x100] with res := { Result.cleared with s0 := 0x003, s1 := 7 } }, _, _, by decide,
    rfl, rfl, step_eq _, step_eq _, by decide⟩

theorem witness_ReportIsHeldUntilTheNextClose :
    (presenting [0x000, 0x2F0]).pending = [0x000, 0x2F0] ++ [] ∧
    ∀ w ∈ [0x000#11, 0x2F0#11], decodeWord w = .idle ∨ ∃ b, decodeWord w = .push b :=
  ⟨rfl, fun w hw => by
    rcases List.mem_pair.mp hw with rfl | rfl
    · exact .inl (by decide)
    · exact .inr ⟨0xF0, by decide⟩⟩

theorem witness_OpenFrameNeverReports :
    (presenting [0x2F0, 0x000]).pending = [0x2F0, 0x000] ++ [] ∧ (presenting [0x2F0, 0x000]).work.cnt.toNat ≤ 65536 ∧
    activeOps [0x2F0, 0x000] = [0xF0].map .push := by decide

theorem presents_s2_head : PresentsFrame [0xF0, 0x55] [0x2F0, 0x000, 0x355] :=
  ⟨[0x2F0, 0x000], 0x355, rfl, .inr ⟨[0xF0], 0x55, rfl, by decide, by decide⟩⟩

theorem presents_empty : PresentsFrame [] [0x000, 0x1FF] :=
  ⟨[0x000], 0x1FF, rfl, .inl ⟨by decide, by decide⟩⟩

theorem witness_ResetThenFrameReportsTheFrame :
    decodeWord 0x7FF = .rst ∧ PresentsFrame [0xF0, 0x55] [0x2F0, 0x000, 0x355] ∧
    (presenting [0x7FF, 0x2F0, 0x000, 0x355]).pending = 0x7FF :: [0x2F0, 0x000, 0x355] ++ [] :=
  ⟨by decide, presents_s2_head, rfl⟩

theorem witness_DecoderReadsTheLayout : 9 ≤ [0xF0#8, 9, 0, 1, 0, 3, 0xAA, 0xBB, 0x55].length := by decide

theorem witness_ShortFramesAreInvalid :
    [0xF0#8, 8, 0, 1, 0, 3, 0xAA, 0x55].length < 9 ∧ 9 ≤ [0xF0#8, 9, 0, 1, 0, 3, 0xAA, 0xBB, 0x55].length := by decide

/-- The fields of vector C16, for the statements about what the decoder extracted. -/
theorem witness_ChecksumAvailabilityRange :
    decodeFrame [0xF0, 10, 0, 0x01, 0x05, 0x03, 0x11, 0x34, 0x12, 0x34, 0x12, 0x55] =
      .fields ⟨12, 0xF0, 10, 0x01, 0x05, 0x03, 3, 0x1234, 0x55⟩ := by decide

theorem witness_RightLengthForcesValidChecksum :
    ∃ d, validate cfgEx [0xF0, 9, 0, 1, 0, 3, 0xAA, 0xBB, 0x55] = .decoded d ∧ d.lenOk = true :=
  ⟨_, rfl, by decide⟩

/-- Each clause of the case table: `dl` of 2, 3, 6, 7, `N`, `N + 1` and `N + 2` against `N = 9`. -/
theorem witness_ChecksumCaseTable :
    ∀ dl ∈ [2#8, 3, 6, 7, 9, 10, 11], ∃ f, decodeFrame [0xF0, dl, 0, 1, 0, 3, 0xAA, 0xBB, 0x55] = .fields f ∧
      f.dl.toNat = dl.toNat := by
  intro dl _
  exact ⟨_, rfl, by simp [le16_toNat]⟩

theorem witness_ValidChecksumDoesNotForceLength : 9 ≤ 9 ∧ 3 ≤ 10 ∧ 10 ≤ 9 + 1 ∧ 10 < 65536 ∧ 10 ≠ 9 := by decide

theorem witness_CoreIsTheReferenceFunction :
    9 ≤ (nineBytes 10 0).cnt.toNat ∧ (chkCore 9 10 0x55AA 0x55 0x55).avail = true ∧ (chkCore 9 11 0x55AA 0x55 0x55).avail = false ∧
    decodeFrame [0xF0, 10, 0, 0x01, 0x05, 0x03, 0x11, 0x34, 0x12, 0x34, 0x12, 0x55] =
      .fields ⟨12, 0xF0, 10, 0x01, 0x05, 0x03, 3, 0x1234, 0x55⟩ ∧
    [0xF0#8, 10, 0, 0x01, 0x05, 0x03, 0x11, 0x34, 0x12, 0x34, 0x12, 0x55][10 - 3]? = some 0x34 ∧
    [0xF0#8, 10, 0, 0x01, 0x05, 0x03, 0x11, 0x34, 0x12, 0x34, 0x12, 0x55][10 - 2]? = some 0x12 := by decide

theorem witness_TypeFFIsUnknown :
    9 ≤ (working 9 0 0 0 0 0 0xFF 0 0 0 0 0).cnt.toNat ∧ (working 9 0 0 0 0 0 0xFF 0 0 0 0 0).hdr5 = 0xFF#8 := by decide

theorem witness_ReportEncodingLosesNothing :
    (Report.decoded ⟨70000, 0xF0, 6, 1, 0, 3, 69991, 0, 0x55, true, true, true, true, false, .unavailable⟩).wellFormed
      = true ∧ 65536 ≤ 70000 ∧ 69991 = 70000 - 9 ∧ [0xF0#8].length ≤ 65535 := by decide

/-- Both kinds of reading: a report of 70000 bytes, and an `Invalid` one. -/
theorem witness_RecoveredAdmitsExactlyTheEncodedReports :
    (Report.decoded ⟨70000, 0xF0, 6, 1, 0, 3, 69991, 0, 0x55, true, true, true, true, false, .unavailable⟩).wellFormed
      = true ∧
    recoverReport (enc (.decoded
        ⟨70000, 0xF0, 6, 1, 0, 3, 69991, 0, 0x55, true, true, true, true, false, .unavailable⟩)) =
      some (.lowerBounds ⟨65536, 0xF0, 6, 1, 0, 3, 65527, 0, 0x55, true, true, true, true, false, .unavailable⟩) ∧
    (Report.invalid 8).wellFormed = true ∧ recoverReport (enc (.invalid 8)) = some (.exact (.invalid 8)) := by decide

theorem witness_DiagnosticsMatchTheirCauses :
    [0xF0#8].length < 9 ∧ (∃ f, decodeFrame [0xF0, 6, 0, 1, 0, 3, 0xAA, 0xBB, 0x55] = .fields f ∧
      chkOutcome [0xF0, 6, 0, 1, 0, 3, 0xAA, 0xBB, 0x55] f = .available 0x0001 false) :=
  ⟨by decide, ⟨9, 0xF0, 6, 1, 0, 3, 0, 0xBBAA, 0x55⟩, by decide, by decide⟩

theorem witness_DiagnosticStructure :
    signalled (enc (.invalid 8)) .invalidMessage = true ∧
    signalled (enc (validate cfgEx [0xF0, 2, 0, 1, 0, 3, 0xAA, 0xBB, 0x55])) .checksumUnavailable = true ∧
    cfgEx.classMap 0x01 = true ∧ cfgEx.typeMap 0x03 = true := by decide

theorem witness_MarkerChecksAreIndependent :
    cfgEx.classMap 0x01 = true ∧ cfgEx.classMap 0x03 = false ∧ cfgEx.typeMap 0x03 = true ∧ cfgEx.typeMap 0xFF = false := by
  decide

theorem witness_WorkingRegistersTrackTheFrame :
    (presenting [0x2F0, 0x209, 0x200]).work = State.reset.work ∧
    activeOps [0x2F0, 0x209, 0x200] = [0xF0, 0x09, 0x00].map .push ∧
    (presenting [0x2F0, 0x209, 0x200]).pending = [0x2F0, 0x209, 0x200] ++ [] := by decide

/-- Both forms of a presented frame: the closing word carrying the last byte, and END for no byte. -/
theorem witness_ClosedFrameReportsItsBytes :
    (presenting [0x2F0, 0x000, 0x355]).work = State.reset.work ∧ PresentsFrame [0xF0, 0x55] [0x2F0, 0x000, 0x355] ∧
    PresentsFrame [] [0x000, 0x1FF] ∧ (presenting [0x2F0, 0x000, 0x355]).pending = [0x2F0, 0x000, 0x355] ++ [] :=
  ⟨rfl, presents_s2_head, presents_empty, rfl⟩

theorem witness_SaturationIsExact :
    ∃ d, validate Config.chip [0xF0, 9, 0, 1, 0, 3, 0xAA, 0xBB, 0x55] = .decoded d ∧
      (holding (workingAfter [0xF0, 9, 0, 1, 0, 3, 0xAA, 0xBB, 0x55])).work =
        workingAfter [0xF0, 9, 0, 1, 0, 3, 0xAA, 0xBB, 0x55] := ⟨_, rfl, rfl⟩

/-- The first clause of SaturationIsExact: a frame of 65536 bytes has a decoded report. -/
theorem witness_SaturationIsExact_long :
    65536 ≤ (List.replicate 65536 0#8).length ∧ ∃ d, validate Config.chip (List.replicate 65536 0#8) = .decoded d :=
  ⟨by rw [List.length_replicate],
    _, validate_of_fields _ (decodeFrame_long _ (by rw [List.length_replicate]; omega))⟩

theorem witness_ReportsAreTheClosedFrames :
    decodeWord 0x400 = .rst ∧ (presenting [0x400, 0x2F0, 0x100]).pending = 0x400 :: [0x2F0, 0x100] ++ [] := by decide

theorem witness_IdleWordsAreTransparent :
    decodeWord 0x255 = .push 0x55 ∧ decodeWord 0x100 = .endFrame ∧ decodeWord 0x355 = .pushl 0x55 := by decide

theorem witness_StepKeepsRegisterRanges : RegisterRanges State.reset.toBlock ∧ ∃ t, step State.reset = .next t :=
  ⟨⟨by decide, by decide, by decide⟩, _, step_eq _⟩

/-- A held report that is not the empty one: `Invalid` of 7 bytes, before a PUSH. -/
theorem witness_StepKeepsHeldReportConsistent :
    ReportConsistent Config.chip { Result.cleared with s0 := 0b0000000011, s1 := 7 } ∧
    ∃ t, step { presenting [0x2F0] with res := { Result.cleared with s0 := 0b0000000011, s1 := 7 } } = .next t :=
  ⟨⟨fun h => absurd h (by decide), fun _ _ => ⟨by decide, rfl⟩, fun _ h => absurd h (by decide)⟩, _, step_eq _⟩

/-- A frame of 9 bytes with `dl = 9`, its captures and its window agreeing, before an END. -/
theorem witness_StepKeepsLengthForcesChecksum :
    ∃ s t : State, s.work = acceptByte 0x55 eightOfS2 ∧ WindowAgrees s.work ∧ LengthForcesChecksum s.res ∧
      step s = .next t :=
  ⟨{ presenting [0x100] with work := acceptByte 0x55 eightOfS2 }, _, rfl,
    ⟨fun _ _ => by decide, fun _ h => absurd h (by decide), fun _ h => absurd h (by decide)⟩,
    fun h => absurd h (by decide), step_eq _⟩

theorem witness_StepKeepsRealReport :
    HoldsRealReport Config.chip { presenting [0x100] with work := workingAfter [0xF0] }.toBlock ∧
    ∃ t, step { presenting [0x100] with work := workingAfter [0xF0] } = .next t :=
  ⟨⟨⟨[0xF0], rfl⟩, .inl rfl⟩, _, step_eq _⟩

end Sys2Proof.Tests
end

/-! SUPPORT. Proofs about the scope of the model (00_scope.md): the machine's maps, and what counts as state. -/

namespace Sys2Proof.Machine

/-! ### The type map and the close of a decoded frame -/

/-- The machine's type map keeps the one constraint of 00_scope.md R10, whatever its free values are. -/
theorem chip_agreesWithSource : Config.chip.AgreesWithSource := by
  simp [Config.AgreesWithSource, Config.chip]

/-- END on a frame of 9 bytes or more: the exact next state (43_stream_ops.md R165, R166). -/
theorem exec_endFrame_long {s : State} (h : 9 ≤ s.work.cnt.toNat) :
    exec .endFrame s =
      .next { s with work := Working.cleared, res := latchDecoded Config.chip s.work, rptValid := true } := by
  rw [← latchReport_long Config.chip s.work h]
  exact exec_eq_perform .endFrame s

/-- `TYPE_OK` of the status word is read at bit 4 (10_state.md R28). -/
theorem flagsOf_typeOk (r : Result) : (flagsOf r).typeOk = r.s0.getLsbD 4 := rfl

/-- A close of 9 bytes or more signals DG4 exactly when the type map says no to the type byte (60_exceptions.md R195). -/
theorem signalled_unknownType_latchDecoded (cfg : Config) (w : Working) :
    signalled (latchDecoded cfg w) .unknownType = !cfg.typeMap w.hdr5 := by
  simp only [signalled, flagsOf_latchDecoded, Bool.not_false, Bool.true_and]

/-- Settles O32: END latches the type map's answer on the type byte, and on `0xFF` that answer is the constraint of
00_scope.md R10. -/
theorem typeFFIsUnknown : Obligations.TypeFFIsUnknown := by
  refine ⟨chip_agreesWithSource, fun s hcnt htype => ⟨_, exec_endFrame_long hcnt, ?_⟩⟩
  have hmap : Config.chip.typeMap s.work.hdr5 = false := htype ▸ chip_agreesWithSource
  refine ⟨?typeOk, ?s6, ?signal⟩
  case typeOk => rw [← flagsOf_typeOk, flagsOf_latchDecoded]; exact hmap
  case s6 => exact (latchDecoded_s6 _ _).trans htype
  case signal => rw [signalled_unknownType_latchDecoded, hmap]; rfl

/-! ### The registers and the producer after a step -/

/-- The registers after a step: `Step` of the registers and the word taken (00_scope.md R17). -/
theorem step_next_toBlock {s t : State} (h : step s = .next t) :
    t.toBlock = stepWord Config.chip s.toBlock (nextWord s.toProducer) :=
  congrArg State.toBlock (step_next h)

/-- The producer's side after a step: the word taken off it, whatever the operation did (log 1, log 6). -/
theorem step_next_toProducer {s t : State} (h : step s = .next t) : t.toProducer = takeWord s.toProducer :=
  congrArg State.toProducer (step_next h)

/-- Settles O48: each side of the next state is a function of what the clause holds equal. -/
theorem registersAloneAreTheBlockState : Obligations.RegistersAloneAreTheBlockState := by
  refine ⟨fun s => ⟨_, step_eq s, step_next_toBlock (step_eq s)⟩, ?registers, ?producer⟩
  case registers =>
    intro s s' t t' hblock hword hs hs'
    rw [step_next_toBlock hs, step_next_toBlock hs', hblock, hword]
  case producer =>
    intro s s' t t' hproducer hs hs'
    rw [step_next_toProducer hs, step_next_toProducer hs', hproducer]

end Sys2Proof.Machine

/-! SUPPORT. Proofs about the registers of the block and the report they hold (10_state.md). -/

namespace Sys2Proof.Machine

/-! ### A close latches a legal report (R28 to R38, R40) -/

/-- The payload length a close latches, as a number (R38): the subtraction of R165 fits `S10`. -/
theorem latchDecoded_s10_toNat (cfg : Config) (w : Working) :
    (latchDecoded cfg w).s10.toNat = w.cnt.toNat - 9 := by
  rw [latchDecoded_s10, minLen_eq, BitVec.toNat_ofNat]
  exact Nat.mod_eq_of_lt (by omega)

/-- A count equal to a 16-bit declared length is not the saturated one (R28: `LEN_OK` and `LEN_SAT` exclude each
other). -/
theorem half_toNat_ne_saturated (dl : Half) : dl.toNat ≠ 65536 := by
  have := dl.isLt
  omega

/-- The state of the result registers after a reset is a legal one: no report (R41). -/
theorem reportConsistent_cleared (cfg : Config) : ReportConsistent cfg Result.cleared where
  noReport _ := rfl
  invalid hdone := by simp [flagsOf_cleared] at hdone
  decoded hdone := by simp [flagsOf_cleared] at hdone

/-- What a close writes for fewer than 9 bytes is a legal `Invalid` report (R40). -/
theorem reportConsistent_latchInvalid (cfg : Config) {w : Working} (h : w.cnt.toNat < 9) :
    ReportConsistent cfg (latchInvalid w) where
  noReport hdone := by simp [flagsOf_latchInvalid] at hdone
  invalid _ _ := ⟨h, rfl⟩
  decoded _ hinvalid := by simp [flagsOf_latchInvalid] at hinvalid

/-- What a close writes for 9 bytes or more: every flag says the truth of the fields beside it (R28 to R38). -/
theorem decodedConsistent_latchDecoded (cfg : Config) {w : Working} (h : 9 ≤ w.cnt.toNat) :
    DecodedConsistent cfg (latchDecoded cfg w) where
  length := h
  paylen := latchDecoded_s10_toNat cfg w
  somOk := by simp [flagsOf_latchDecoded]
  classOk := by simp [flagsOf_latchDecoded]
  typeOk := by simp [flagsOf_latchDecoded]
  eomOk := by simp [flagsOf_latchDecoded]
  lenOk := by simp [flagsOf_latchDecoded]
  chkAvail := by simp [flagsOf_latchDecoded, checksumAvailable_iff]
  chkOk := by
    rw [flagsOf_latchDecoded, latchDecoded_s8, latchDecoded_s7]
    cases checksumAvailable w.cnt (declaredLength w) <;> simp
  noChecksum havail := by
    rw [flagsOf_latchDecoded] at havail
    rw [latchDecoded_s8, if_neg (Bool.eq_false_iff.mp havail)]
  lenSat := by simp [flagsOf_latchDecoded]
  exclusive := by
    rw [flagsOf_latchDecoded]
    rintro ⟨hlen, hsat⟩
    exact half_toNat_ne_saturated (declaredLength w) ((of_decide_eq_true hlen).trans (of_decide_eq_true hsat))

theorem reportConsistent_latchDecoded (cfg : Config) {w : Working} (h : 9 ≤ w.cnt.toNat) :
    ReportConsistent cfg (latchDecoded cfg w) where
  noReport hdone := by simp [flagsOf_latchDecoded] at hdone
  invalid _ hinvalid := by simp [flagsOf_latchDecoded] at hinvalid
  decoded _ _ := decodedConsistent_latchDecoded cfg h

/-- A close latches a legal report whatever the working registers hold. -/
theorem reportConsistent_latchReport (cfg : Config) (w : Working) : ReportConsistent cfg (latchReport cfg w) := by
  rcases Nat.lt_or_ge w.cnt.toNat 9 with hshort | hlong
  · rw [latchReport_short cfg w hshort]
    exact reportConsistent_latchInvalid cfg hshort
  · rw [latchReport_long cfg w hlong]
    exact reportConsistent_latchDecoded cfg hlong

/-- Settles O44: RST holds no report, a close latches a legal one, and no other operation writes the result registers. -/
theorem stepKeepsHeldReportConsistent : Obligations.StepKeepsHeldReportConsistent := by
  intro s t hs hstep
  exact @step_keeps (fun _ r => ReportConsistent Config.chip r) (reportConsistent_cleared _)
    (fun _ _ _ hr => hr) (fun w _ _ => reportConsistent_latchReport _ w) s t hs hstep

/-! ### Captures, window and a right length (R23, R24; 42_checksum_core.md R144) -/

/-- In the reset state the declared length is 0, so captures and window stand for no common position. -/
theorem windowAgrees_cleared : WindowAgrees Working.cleared where
  whole h := absurd h (by decide)
  oneMore h := absurd h (by decide)
  twoMore h := absurd h (by decide)

/-- A byte moves each agreement one place down the window. Where a declared length of 9 or more is within two of the
new count, the count before was at least 6, so it is not saturated, the byte lies past the header, and the declared
length is the one latched. -/
theorem windowAgrees_acceptByte (b : Byte) {w : Working} (h : WindowAgrees w) : WindowAgrees (acceptByte b w) := by
  have hbound := (declaredLength (acceptByte b w)).isLt
  have hcnt := acceptByte_cnt_toNat b w
  refine ⟨fun hnine heq => ?whole, fun hnine heq => ?oneMore, fun hnine heq => ?twoMore⟩ <;>
    have hdl := acceptByte_declaredLength b w (by omega) <;>
    rw [hdl] at hnine heq hbound
  case whole =>
    have hprev : (declaredLength w).toNat = w.cnt.toNat + 1 := by omega
    obtain ⟨hlo, hhi⟩ := h.oneMore hnine hprev
    rw [acceptByte_capLo, acceptByte_capHi, if_neg (by omega), if_neg (by omega)]
    exact ⟨hlo, hhi⟩
  case oneMore =>
    have hprev : (declaredLength w).toNat = w.cnt.toNat + 2 := by omega
    rw [acceptByte_capLo, acceptByte_capHi, if_neg (by omega), if_pos (by omega)]
    exact ⟨h.twoMore hnine hprev, rfl⟩
  case twoMore =>
    rw [acceptByte_capLo, if_pos (by omega)]
    rfl

theorem lengthForcesChecksum_cleared : LengthForcesChecksum Result.cleared := by
  intro hlen
  simp [flagsOf_cleared] at hlen

/-- Where the declared length is the count, the two bytes the close selects are the two oldest of the window, so the
computed checksum is the declared one (42_checksum_core.md R144). -/
theorem computed_eq_declared_of_right_length {w : Working} (hw : WindowAgrees w) (h : 9 ≤ w.cnt.toNat)
    (hlen : (declaredLength w).toNat = w.cnt.toNat) : le16 (lowByte w) (highByte w) = declaredChecksum w := by
  obtain ⟨hlo, hhi⟩ := hw.whole (by omega) hlen
  rw [lowByte_captured w (by omega), highByte_captured w (by omega), hlo, hhi, declaredChecksum]

theorem lengthForcesChecksum_latchReport (cfg : Config) {w : Working} (hw : WindowAgrees w) :
    LengthForcesChecksum (latchReport cfg w) := by
  rcases Nat.lt_or_ge w.cnt.toNat 9 with hshort | hlong
  · rw [latchReport_short cfg w hshort]
    intro hlen
    simp [flagsOf_latchInvalid] at hlen
  · rw [latchReport_long cfg w hlong, LengthForcesChecksum, flagsOf_latchDecoded, latchDecoded_s8, latchDecoded_s7]
    intro hlenOk
    have hlen : (declaredLength w).toNat = w.cnt.toNat := of_decide_eq_true hlenOk
    have havail : checksumAvailable w.cnt (declaredLength w) = true :=
      (checksumAvailable_iff _ _).mpr (by omega)
    have hchk := computed_eq_declared_of_right_length hw hlong hlen
    simp [havail, hchk]

/-- Settles O45: the agreement of captures and window is kept by every byte, and a close reads the report off it. -/
theorem stepKeepsLengthForcesChecksum : Obligations.StepKeepsLengthForcesChecksum := by
  intro s t hw hr hstep
  exact @step_keeps (fun w r => WindowAgrees w ∧ LengthForcesChecksum r)
    ⟨windowAgrees_cleared, lengthForcesChecksum_cleared⟩
    (fun b _ _ ⟨hw, hr⟩ => ⟨windowAgrees_acceptByte b hw, hr⟩)
    (fun _ _ ⟨hw, _⟩ => ⟨windowAgrees_cleared, lengthForcesChecksum_latchReport _ hw⟩) s t ⟨hw, hr⟩ hstep

/-! ### What a consumer recovers of an encoded report (R40; 70_reset_and_hazards.md R226, R233) -/

theorem recoverReport_enc_invalid (n : Fin 9) : recoverReport (enc (.invalid n)) = some (.exact (.invalid n)) := by
  have hs1 : (enc (.invalid n)).s1.toNat = n.val := by
    have := n.isLt
    simp only [enc, BitVec.toNat_ofNat]
    omega
  simp [recoverReport, flagsOf_enc_invalid, hs1]

/-- Status first, then the lengths: the registers of an encoded report of 9 bytes or more give back what `retained`
keeps of it. -/
theorem recoverReport_enc_decoded {d : DecodedReport} (hlong : 9 ≤ d.n) (hpay : d.paylen = d.n - 9) :
    recoverReport (enc (.decoded d)) = some (retained (.decoded d)) := by
  have hf := flagsOf_encDecoded d
  rw [enc, recoverReport_decoded (by rw [hf]) (by rw [hf]), readDecoded_encDecoded, hf]
  rcases Nat.lt_or_ge d.n 65536 with hshort | hsat
  · rw [retained_exact d (by omega), Nat.min_eq_left (by omega), ← hpay]
    simp [Nat.not_le.mpr hshort]
  · rw [retained_lowerBounds d hsat, Nat.min_eq_right hsat]
    simp [hsat]

theorem wellFormed_decoded (d : DecodedReport) :
    (Report.decoded d).wellFormed = true ↔ 9 ≤ d.n ∧ d.paylen = d.n - 9 := decide_eq_true_iff

theorem recoverReport_enc {r : Report} (h : r.wellFormed = true) : recoverReport (enc r) = some (retained r) := by
  cases r with
  | invalid n => exact recoverReport_enc_invalid n
  | decoded d =>
    obtain ⟨hlong, hpay⟩ := (wellFormed_decoded d).mp h
    exact recoverReport_enc_decoded hlong hpay

/-- The report of a sequence of 9 bytes or more has its two lengths (40_frame_decode.md R101, R106). -/
theorem validate_long (cfg : Config) {raw : List Byte} (h : 9 ≤ raw.length) :
    ∃ d, validate cfg raw = .decoded d ∧ d.n = raw.length ∧ d.paylen = raw.length - 9 :=
  ⟨_, validate_of_fields cfg (decodeFrame_long raw h), rfl, rfl⟩

theorem validate_wellFormed (cfg : Config) (raw : List Byte) : (validate cfg raw).wellFormed = true := by
  rcases Nat.lt_or_ge raw.length 9 with hshort | hlong
  · rw [validate_short cfg raw hshort]; rfl
  · obtain ⟨d, hd, hn, hpay⟩ := validate_long cfg hlong
    rw [hd, wellFormed_decoded]
    omega

/-- The report of a sequence of at most 65535 bytes is retained whole. -/
theorem retained_validate_exact (cfg : Config) {raw : List Byte} (h : raw.length ≤ 65535) :
    retained (validate cfg raw) = .exact (validate cfg raw) := by
  rcases Nat.lt_or_ge raw.length 9 with hshort | hlong
  · rw [validate_short cfg raw hshort]; rfl
  · obtain ⟨d, hd, hn, -⟩ := validate_long cfg hlong
    rw [hd, retained_exact d (by omega)]

/-- From 65536 bytes on, `S1` holds the saturated count (R29). -/
theorem enc_decoded_s1_saturated {d : DecodedReport} (h : 65536 ≤ d.n) : (enc (.decoded d)).s1.toNat = 65536 := by
  change (saturatedCount d.n).toNat = 65536
  rw [saturatedCount, cntSat_eq, Nat.min_eq_right h]
  rfl

/-- `LEN_SAT` of an encoded report of 9 bytes or more (R28, R40). -/
theorem flagsOf_enc_decoded_lenSat (d : DecodedReport) : (flagsOf (enc (.decoded d))).lenSat = true ↔ 65536 ≤ d.n := by
  rw [enc, flagsOf_encDecoded]
  exact decide_eq_true_iff

/-- Settles O34: recovery of an encoded report, the reports of byte sequences among them. -/
theorem reportEncodingLosesNothing : Obligations.ReportEncodingLosesNothing := by
  refine ⟨fun r hr => recoverReport_enc hr, fun cfg raw => ?sequence, fun d hsat _ _ => ?saturated⟩
  case sequence =>
    have hwf := validate_wellFormed cfg raw
    refine ⟨hwf, fun hle => ?_, fun hsat => ?_⟩
    · rw [recoverReport_enc hwf, retained_validate_exact cfg hle]
    · have hlong : 9 ≤ raw.length := by omega
      obtain ⟨d, hd, hn, -⟩ := validate_long cfg hlong
      exact ⟨d, hd, by rw [recoverReport_enc hwf, hd, retained_lowerBounds d (by omega)]⟩
  case saturated => exact ⟨(flagsOf_enc_decoded_lenSat d).mpr hsat, enc_decoded_s1_saturated hsat⟩

/-! ### What the recovered value admits (R40; 70_reset_and_hazards.md R226, R233) -/

/-- From 65536 bytes on the registers do not depend on the two lengths. -/
theorem encDecoded_of_saturated {d e : DecodedReport} (hd : 65536 ≤ d.n) (he : 65536 ≤ e.n)
    (h : e = { d with n := e.n, paylen := e.paylen }) : encDecoded e = encDecoded d := by
  rw [h]
  simp [encDecoded, saturatedCount, hd, he]

/-- Of an exact reading only its own report leaves that reading: a report of lower bounds is no exact one. -/
theorem eq_of_retained_eq_exact {r r' : Report} (h : retained r' = .exact r) : r' = r := by
  cases r' with
  | invalid n => exact Recovered.exact.inj h
  | decoded d =>
    rcases Nat.lt_or_ge d.n 65536 with hexact | hsat
    · rw [retained_exact d (by omega)] at h
      exact Recovered.exact.inj h
    · rw [retained_lowerBounds d hsat] at h
      cases h

/-- The reports that leave the same lower bounds as `d` have 65536 bytes or more and differ from it in the two lengths
alone. -/
theorem retained_eq_lowerBounds_iff {d : DecodedReport} (hd : 65536 ≤ d.n) (r' : Report) :
    retained r' = retained (.decoded d) ↔
      ∃ e, r' = .decoded e ∧ 65536 ≤ e.n ∧ e = { d with n := e.n, paylen := e.paylen } := by
  rw [retained_lowerBounds d hd]
  constructor
  · intro h
    cases r' with
    | invalid n => cases h
    | decoded e =>
      rcases Nat.lt_or_ge e.n 65536 with hexact | hsat
      · rw [retained_exact e (by omega)] at h
        cases h
      · rw [retained_lowerBounds e hsat] at h
        refine ⟨e, rfl, hsat, ?_⟩
        exact congrArg (fun x : DecodedReport => { x with n := e.n, paylen := e.paylen }) (Recovered.lowerBounds.inj h)
  · rintro ⟨e, rfl, hsat, he⟩
    rw [retained_lowerBounds e hsat, he]

/-- Two well-formed reports have the same registers exactly when the same is retained of them. -/
theorem enc_eq_iff_retained_eq {r r' : Report} (hr : r.wellFormed = true) (hr' : r'.wellFormed = true) :
    enc r' = enc r ↔ retained r' = retained r := by
  constructor
  · intro h
    have hrec := congrArg recoverReport h
    rw [recoverReport_enc hr, recoverReport_enc hr'] at hrec
    exact Option.some.inj hrec
  · intro h
    cases r with
    | invalid n => rw [eq_of_retained_eq_exact h]
    | decoded d =>
      rcases Nat.lt_or_ge d.n 65536 with hexact | hsat
      · rw [retained_exact d (by omega)] at h
        rw [eq_of_retained_eq_exact h]
      · obtain ⟨e, rfl, he, heq⟩ := (retained_eq_lowerBounds_iff hsat r').mp h
        exact encDecoded_of_saturated hsat he heq

/-- What is retained of a report admits the well-formed reports of which the same is retained. -/
theorem admits_retained_iff {r r' : Report} (hr' : r'.wellFormed = true) :
    (retained r).admits r' = true ↔ retained r' = retained r := by
  have hexact (h : retained r = .exact r) : (retained r).admits r' = true ↔ retained r' = retained r := by
    rw [h]
    refine ⟨fun hadm => ?_, fun heq => beq_iff_eq.mpr (eq_of_retained_eq_exact heq)⟩
    rw [eq_of_beq hadm, h]
  cases r with
  | invalid n => exact hexact rfl
  | decoded d =>
    rcases Nat.lt_or_ge d.n 65536 with hshort | hsat
    · exact hexact (retained_exact d (by omega))
    · rw [retained_eq_lowerBounds_iff hsat, retained_lowerBounds d hsat]
      cases r' with
      | invalid n => simp [Recovered.admits]
      | decoded e =>
        obtain ⟨-, hpay⟩ := (wellFormed_decoded e).mp hr'
        simp only [Recovered.admits, decide_eq_true_eq, Report.decoded.injEq, exists_eq_left']
        exact ⟨fun ⟨hn, _, he⟩ => ⟨hn, he⟩, fun ⟨hn, he⟩ => ⟨hn, by omega, he⟩⟩

/-- Lower bounds are what is retained exactly where `LEN_SAT` is 1. -/
theorem retained_lowerBounds_iff_lenSat (r : Report) :
    (∃ d, retained r = .lowerBounds d) ↔ (flagsOf (enc r)).lenSat = true := by
  cases r with
  | invalid n => simp [retained, flagsOf_enc_invalid]
  | decoded d =>
    rw [flagsOf_enc_decoded_lenSat]
    rcases Nat.lt_or_ge d.n 65536 with hexact | hsat
    · simp [retained_exact d (by omega), Nat.not_le.mpr hexact]
    · simp [retained_lowerBounds d hsat, hsat]

/-- Settles O49: what the consumer recovers is what the registers retain, which is all the encoding distinguishes. -/
theorem recoveredAdmitsExactlyTheEncodedReports : Obligations.RecoveredAdmitsExactlyTheEncodedReports := by
  intro r v hr hv
  rw [recoverReport_enc hr] at hv
  cases hv
  refine ⟨fun r' hr' => ?_, retained_lowerBounds_iff_lenSat r⟩
  rw [admits_retained_iff hr', enc_eq_iff_retained_eq hr hr']

/-! ### The working registers of a frame in progress (R21 to R25; 43_stream_ops.md R160) -/

/-- The working registers hold what R21 to R24 say of the bytes `raw` received so far: a register whose byte has not
come yet reads 0, and `dl` is the declared length of the latches. -/
structure TracksBytes (raw : List Byte) (w : Working) : Prop where
  cnt : w.cnt.toNat = min raw.length 65536
  latch : ∀ k : Nat, k < 6 → headerLatch w k = some (raw[k]?.getD 0)
  tr0 : w.tr0 = raw.reverse[2]?.getD 0
  tr1 : w.tr1 = raw.reverse[1]?.getD 0
  tr2 : w.tr2 = raw.reverse[0]?.getD 0
  capLo : 9 ≤ (declaredLength w).toNat → (declaredLength w).toNat - 3 < raw.length →
    raw[(declaredLength w).toNat - 3]? = some w.capLo
  capHi : 8 ≤ (declaredLength w).toNat → (declaredLength w).toNat - 2 < raw.length →
    raw[(declaredLength w).toNat - 2]? = some w.capHi

theorem tracksBytes_nil : TracksBytes [] Working.cleared where
  cnt := rfl
  latch k hk := by interval_cases k <;> rfl
  tr0 := rfl
  tr1 := rfl
  tr2 := rfl
  capLo _ h := absurd h (Nat.not_lt_zero _)
  capHi _ h := absurd h (Nat.not_lt_zero _)

/-- The capture rule of R159 at the position `dl - off`: the byte that arrives when the count stands at that position is
caught, and an earlier one is kept. A declared length has 16 bits, so a saturated count stands at no such position. -/
theorem captured_append {raw : List Byte} {cnt off : Nat} {dl : Half} {b old : Byte}
    (hcnt : cnt = min raw.length 65536) (hhdr : 6 + off ≤ dl.toNat)
    (hold : dl.toNat - off < raw.length → raw[dl.toNat - off]? = some old)
    (hin : dl.toNat - off < (raw ++ [b]).length) :
    (raw ++ [b])[dl.toNat - off]? = some (if 6 ≤ cnt ∧ cnt + off = dl.toNat then b else old) := by
  have hbound := dl.isLt
  rw [List.length_append, List.length_singleton] at hin
  rcases Nat.lt_or_eq_of_le (Nat.le_of_lt_succ hin) with hlt | heq
  · rw [if_neg (by omega), List.getElem?_append_left hlt, hold hlt]
  · rw [if_pos (by omega), heq, List.getElem?_concat_length]

/-- A byte accepted after `raw` leaves the registers at `raw` and that byte. -/
theorem tracksBytes_acceptByte {raw : List Byte} {w : Working} (b : Byte) (h : TracksBytes raw w) :
    TracksBytes (raw ++ [b]) (acceptByte b w) := by
  have hcnt := h.cnt
  refine ⟨?cnt, fun k hk => ?latch, ?tr0, ?tr1, ?tr2, fun hnine hin => ?capLo, fun height hin => ?capHi⟩
  case cnt =>
    rw [acceptByte_cnt_toNat, hcnt, List.length_append, List.length_singleton]
    omega
  case latch =>
    rw [acceptByte_headerLatch b w k hk, h.latch k hk]
    rcases Nat.lt_trichotomy k raw.length with hlt | rfl | hgt
    · rw [if_neg (by omega), List.getElem?_append_left hlt]
    · rw [if_pos (by omega), List.getElem?_concat_length, Option.getD_some]
    · rw [if_neg (by omega), List.getElem?_eq_none (by omega),
        List.getElem?_eq_none (by rw [List.length_append, List.length_singleton]; omega)]
  case tr0 => simpa using h.tr1
  case tr1 => simpa using h.tr2
  case tr2 => simp
  case capLo =>
    have hlen : (raw ++ [b]).length = raw.length + 1 := List.length_append
    have hdl := acceptByte_declaredLength b w (by omega)
    rw [hdl] at hnine hin ⊢
    rw [acceptByte_capLo]
    exact captured_append hcnt hnine (h.capLo hnine) hin
  case capHi =>
    have hlen : (raw ++ [b]).length = raw.length + 1 := List.length_append
    have hdl := acceptByte_declaredLength b w (by omega)
    rw [hdl] at height hin ⊢
    rw [acceptByte_capHi]
    exact captured_append hcnt height (h.capHi height) hin

theorem workingAfter_concat (raw : List Byte) (b : Byte) :
    workingAfter (raw ++ [b]) = acceptByte b (workingAfter raw) := by
  simp [workingAfter]

theorem tracksBytes_workingAfter (raw : List Byte) : TracksBytes raw (workingAfter raw) := by
  induction raw using List.reverseRecOn with
  | nil => exact tracksBytes_nil
  | append_singleton raw b ih =>
    rw [workingAfter_concat]
    exact tracksBytes_acceptByte b ih

/-- The latches of the declared length, where its two bytes have come. -/
theorem TracksBytes.declaredLength_eq {raw : List Byte} {w : Working} (h : TracksBytes raw w) {lo hi : Byte}
    (hlo : raw[1]? = some lo) (hhi : raw[2]? = some hi) :
    (declaredLength w).toNat = lo.toNat + 256 * hi.toNat := by
  have h1 : w.hdr1 = lo := by simpa [hlo] using h.latch 1 (by omega)
  have h2 : w.hdr2 = hi := by simpa [hhi] using h.latch 2 (by omega)
  rw [declaredLength_toNat, h1, h2]

/-- A byte counted from the end of the frame. -/
theorem getElem?_of_reverse_getD {raw : List Byte} {k : Nat} {x : Byte} (hk : k < raw.length)
    (h : x = raw.reverse[k]?.getD 0) : raw[raw.length - (k + 1)]? = some x := by
  have hidx : raw.length - 1 - k = raw.length - (k + 1) := by omega
  rw [List.getElem?_reverse hk, hidx] at h
  rw [h, List.getElem?_eq_getElem (by omega), Option.getD_some]

/-- The trailing window of 3 bytes or more (R23). -/
theorem TracksBytes.window {raw : List Byte} {w : Working} (h : TracksBytes raw w) (hlen : 3 ≤ raw.length) :
    raw[raw.length - 3]? = some w.tr0 ∧ raw[raw.length - 2]? = some w.tr1 ∧ raw[raw.length - 1]? = some w.tr2 :=
  ⟨getElem?_of_reverse_getD (by omega) h.tr0, getElem?_of_reverse_getD (by omega) h.tr1,
    getElem?_of_reverse_getD (by omega) h.tr2⟩

/-! ### Runs of listed words (43_stream_ops.md R155, R175) -/

/-- The machine run on listed words is the reference run on the registers, and takes exactly those words
(log 1, log 6). -/
theorem runSteps_of_pending {s : State} {ws rest : List OpWord} (h : s.pending = ws ++ rest) :
    runSteps ws.length s =
      .next ⟨runWords Config.chip s.toBlock ws, { s.toProducer with pending := rest }⟩ := by
  induction ws generalizing s with
  | nil =>
    rw [List.nil_append] at h
    rw [← h]
    rfl
  | cons w ws ih =>
    rw [List.length_cons, runSteps_succ _ (step_of_pending h), ih rfl]
    rfl

/-- The operations of a word sequence that are not IDLE, one word more. -/
theorem activeOps_cons (w : OpWord) (ws : List OpWord) :
    activeOps (w :: ws) = if isIdle (decodeWord w) then activeOps ws else decodeWord w :: activeOps ws := by
  cases h : isIdle (decodeWord w) <;> simp [activeOps, h]

/-- Words that push the bytes of `raw`, IDLE words among them, leave in the working registers those bytes accepted one
after the other. -/
theorem runWords_work_of_pushes (cfg : Config) {s : Block} {ws : List OpWord} {raw : List Byte}
    (h : activeOps ws = raw.map .push) :
    (runWords cfg s ws).work = raw.foldl (fun w b => acceptByte b w) s.work := by
  induction ws generalizing s raw with
  | nil =>
    have hraw : raw = [] := by simpa [activeOps] using h
    rw [hraw]
    rfl
  | cons w ws ih =>
    rw [activeOps_cons] at h
    rw [runWords_cons]
    cases hw : decodeWord w with
    | idle =>
      rw [hw] at h
      rw [ih h, stepWord, hw, perform_work]
    | rst | endFrame | pushl b => cases raw <;> simp [hw, isIdle] at h
    | push b =>
      cases raw with
      | nil => simp [hw, isIdle] at h
      | cons c raw =>
        obtain ⟨rfl, htail⟩ : b = c ∧ activeOps ws = raw.map .push := by simpa [hw, isIdle] using h
        rw [ih htail, stepWord, hw, perform_work]
        rfl

/-- Settles O38: the run leaves `workingAfter raw` in the working registers, which holds what R21 to R24 say of
`raw`. -/
theorem workingRegistersTrackTheFrame : Obligations.WorkingRegistersTrackTheFrame := by
  intro s ws rest raw hclear hops hpending
  have hwork : (runWords Config.chip s.toBlock ws).work = workingAfter raw := by
    rw [runWords_work_of_pushes _ hops, hclear]
    rfl
  have htracks : TracksBytes raw (runWords Config.chip s.toBlock ws).work := hwork ▸ tracksBytes_workingAfter raw
  refine ⟨_, runSteps_of_pending hpending, htracks.cnt, fun k hk hin => ?received, fun k hk hout => ?missing,
    htracks.window, fun lo hi hlo hhi => ?captures⟩
  case received => rw [htracks.latch k hk, List.getElem?_eq_getElem hin, Option.getD_some]
  case missing => rw [htracks.latch k hk, List.getElem?_eq_none hout, Option.getD_none]
  case captures =>
    rw [← htracks.declaredLength_eq hlo hhi]
    exact ⟨htracks.capLo, htracks.capHi⟩

/-! ### The ranges of the counts (R21, R29, R38) -/

/-- The ranges say nothing of the strobe. -/
theorem RegisterRanges.of_strobe {w : Working} {r : Result} {v v' : Bool} (h : RegisterRanges ⟨w, r, v⟩) :
    RegisterRanges ⟨w, r, v'⟩ := ⟨h.cnt_le, h.s1_le, h.s10_le⟩

theorem registerRanges_reset : RegisterRanges Block.reset := ⟨by decide, by decide, by decide⟩

/-- A byte leaves the count at 65536 at most, wherever it was. -/
theorem registerRanges_acceptByte {w : Working} {r : Result} {v : Bool} (b : Byte) (h : RegisterRanges ⟨w, r, v⟩) :
    RegisterRanges ⟨acceptByte b w, r, v⟩ where
  cnt_le := by
    rw [acceptByte_cnt_toNat]
    exact Nat.min_le_right _ _
  s1_le := h.s1_le
  s10_le := h.s10_le

/-- A close latches the count as `S1`, and `S10` is 9 less or 0. -/
theorem registerRanges_latchReport {w : Working} {r : Result} {v : Bool} (cfg : Config)
    (h : RegisterRanges ⟨w, r, v⟩) : RegisterRanges ⟨Working.cleared, latchReport cfg w, v⟩ := by
  have hcnt : w.cnt.toNat ≤ 65536 := h.cnt_le
  rcases Nat.lt_or_ge w.cnt.toNat 9 with hshort | hlong
  · rw [latchReport_short cfg w hshort]
    exact ⟨Nat.zero_le _, hcnt, Nat.zero_le _⟩
  · rw [latchReport_long cfg w hlong]
    refine ⟨Nat.zero_le _, hcnt, ?_⟩
    rw [latchDecoded_s10_toNat]
    omega

/-- Settles O43: by what each operation does to the three registers that hold a count. -/
theorem stepKeepsRegisterRanges : Obligations.StepKeepsRegisterRanges := by
  intro s t hs hstep
  exact .of_strobe (@step_keeps (fun w r => RegisterRanges ⟨w, r, false⟩) registerRanges_reset
    (fun b _ _ h => registerRanges_acceptByte b h) (fun _ _ h => registerRanges_latchReport _ h) s t hs.of_strobe hstep)

/-! ### Closes, the strobe and the result registers (R27, R39, R43, R44) -/

/-- The operations that close a frame (43_stream_ops.md R165). -/
theorem isClose_iff (i : Instr) : isClose i = true ↔ i = .endFrame ∨ ∃ b, i = .pushl b := by
  cases i <;> simp [isClose]

/-- The strobe after a step: the word taken closes a frame. -/
theorem step_next_rptValid {s t : State} (h : step s = .next t) :
    t.rptValid = isClose (decodeWord (nextWord s.toProducer)) := by
  rw [step_next_toBlock h, stepWord, perform_rptValid]

/-- The result registers after an operation that neither closes a frame nor resets (R27, R43). -/
theorem perform_res_of_not_close (cfg : Config) {i : Instr} (s : Block) (hrst : i ≠ .rst) (hclose : isClose i = false) :
    (perform cfg i s).res = s.res := by
  rw [perform_res]
  cases i with
  | rst => exact absurd rfl hrst
  | idle | push b => rfl
  | endFrame | pushl b => cases hclose

/-- Every close clears the working registers (R44). -/
theorem perform_work_of_close (cfg : Config) {i : Instr} (s : Block) (hclose : isClose i = true) :
    (perform cfg i s).work = Working.cleared := by
  rw [perform_work]
  cases i with
  | rst | idle | push b => cases hclose
  | endFrame | pushl b => rfl

/-- Settles O16: the strobe after a step is `isClose` of its operation. -/
theorem strobeMarksCloses : Obligations.StrobeMarksCloses :=
  ⟨rfl, fun s t h => by rw [step_next_rptValid h, isClose_iff]⟩

/-- Settles O17: an operation that is none of the three keeps the result registers. -/
theorem onlyClosesAndResetWriteResults : Obligations.OnlyClosesAndResetWriteResults := by
  intro s t hstep hres
  rw [← isClose_iff]
  by_contra hnone
  obtain ⟨hrst, hclose⟩ := not_or.mp hnone
  apply hres
  rw [step_next_toBlock hstep, stepWord]
  exact perform_res_of_not_close _ _ hrst (Bool.eq_false_of_not_eq_true hclose)

/-- Settles O19: a strobe that is up marks a close, and a close clears. -/
theorem closeLeavesTheResetWorkingState : Obligations.CloseLeavesTheResetWorkingState := by
  intro s t hstep hup
  rw [step_next_rptValid hstep] at hup
  rw [step_next_toBlock hstep, stepWord, perform_work_of_close _ _ hup, State.reset_work]

/-! ### The reset state (R41; 70_reset_and_hazards.md R220) -/

theorem headerLatch_cleared (k : Nat) (hk : k < 6) : headerLatch Working.cleared k = some 0 := by
  simpa using tracksBytes_nil.latch k hk

/-- Where `DONE` is 0 a consumer recovers no report (log 7). -/
theorem recoverReport_cleared : recoverReport Result.cleared = none := by
  simp [recoverReport, flagsOf_cleared]

/-- Settles O23: the registers of the reset state, and RST, which answers them in every state. -/
theorem resetStateIsAllZero : Obligations.ResetStateIsAllZero :=
  ⟨⟨rfl, headerLatch_cleared, rfl, rfl, rfl, rfl, rfl⟩, rfl, rfl, recoverReport_cleared,
    fun s => ⟨_, exec_eq_perform .rst s, rfl, rfl, rfl⟩⟩

/-- Settles O47: each invariant at reset, the last by the empty frame and no report. -/
theorem resetMeetsTheInvariants : Obligations.ResetMeetsTheInvariants :=
  ⟨registerRanges_reset, reportConsistent_cleared _, windowAgrees_cleared, lengthForcesChecksum_cleared,
    ⟨[], rfl⟩, .inl rfl⟩

/-! ### The status word (R28) -/

/-- A status word is determined by the flags read from it: they are its ten bits. -/
theorem readStatus_injective : Function.Injective readStatus := by
  intro u v h
  simp only [readStatus, StatusFlags.mk.injEq] at h
  obtain ⟨h0, h1, h2, h3, h4, h5, h6, h7, h8, h9⟩ := h
  refine BitVec.eq_of_getLsbD_eq fun i hi => ?_
  interval_cases i <;> assumption

/-- Settles O33: bit `i` of the word is read as its flag, and reading is injective. -/
theorem statusWordIsItsFlags : Obligations.StatusWordIsItsFlags := by
  refine ⟨fun f => ?flags, fun v => readStatus_injective (readStatus_statusWord _)⟩
  have h := readStatus_statusWord f
  exact ⟨h, congrArg (·.done) h, congrArg (·.invalid) h, congrArg (·.somOk) h, congrArg (·.classOk) h,
    congrArg (·.typeOk) h, congrArg (·.eomOk) h, congrArg (·.lenOk) h, congrArg (·.chkAvail) h,
    congrArg (·.chkOk) h, congrArg (·.lenSat) h⟩

end Sys2Proof.Machine

/-! SUPPORT. Proofs about the operation word, the pseudo-instructions and the frame layout (30_encoding.md). -/

namespace Sys2Proof

/-! ### The two fields of an operation word (R76)

A word is a control field `op[10:8]`, the ports `rst`, `in_valid` and `in_last`, above the data field `op[7:0]`, the
port `in_data`. What the decoder chooses is a matter of the three bits of the control field, whatever the data are. -/

@[simp] theorem opRst_append (c : BitVec 3) (b : Byte) : opRst (c ++ b) = c.getLsbD 2 := BitVec.getLsbD_append

@[simp] theorem opInValid_append (c : BitVec 3) (b : Byte) : opInValid (c ++ b) = c.getLsbD 1 := BitVec.getLsbD_append

@[simp] theorem opInLast_append (c : BitVec 3) (b : Byte) : opInLast (c ++ b) = c.getLsbD 0 := BitVec.getLsbD_append

@[simp] theorem opInData_append (c : BitVec 3) (b : Byte) : opInData (c ++ b) = b :=
  BitVec.extractLsb'_append_eq_right

theorem exists_eq_control_append_data (w : OpWord) : ∃ (c : BitVec 3) (b : Byte), w = c ++ b := by
  refine ⟨w.extractLsb' 8 3, w.extractLsb' 0 8, ?_⟩
  have hjoin := BitVec.extractLsb'_append_extractLsb'_eq_extractLsb' (x := w) (start₂ := 8) (start₁ := 0) (len₁ := 8)
    (len₂ := 3) rfl
  rw [hjoin, BitVec.extractLsb'_eq_self]

theorem control_append_data_toNat (c : BitVec 3) (b : Byte) : (c ++ b).toNat = 256 * c.toNat + b.toNat := by
  rw [BitVec.toNat_append, ← Nat.shiftLeft_add_eq_or_of_lt b.isLt, Nat.shiftLeft_eq]
  omega

theorem ofNat_eq_control_append_data (v : Nat) :
    BitVec.ofNat 11 v = BitVec.ofNat 3 (v / 256) ++ BitVec.ofNat 8 v := by
  apply BitVec.eq_of_toNat_eq
  rw [control_append_data_toNat]
  simp only [BitVec.toNat_ofNat]
  omega

/-! ### Encoding and then decoding (R77, R79) -/

theorem encode_push_toNat (b : Byte) : (encode (.push b)).toNat = 0x200 + b.toNat := by
  simp only [encode]
  bv_omega

theorem encode_pushl_toNat (b : Byte) : (encode (.pushl b)).toNat = 0x300 + b.toNat := by
  simp only [encode]
  bv_omega

theorem encode_push_eq_append (b : Byte) : encode (.push b) = 0b010#3 ++ b :=
  BitVec.eq_of_toNat_eq (by rw [encode_push_toNat, control_append_data_toNat]; rfl)

theorem encode_pushl_eq_append (b : Byte) : encode (.pushl b) = 0b011#3 ++ b :=
  BitVec.eq_of_toNat_eq (by rw [encode_pushl_toNat, control_append_data_toNat]; rfl)

/-- What a control field without `rst` selects (R77). -/
theorem decodeWord_idle (b : Byte) : decodeWord (0b000#3 ++ b) = .idle := by simp [decodeWord]

theorem decodeWord_endFrame (b : Byte) : decodeWord (0b001#3 ++ b) = .endFrame := by simp [decodeWord]

theorem decodeWord_push (b : Byte) : decodeWord (0b010#3 ++ b) = .push b := by simp [decodeWord]

theorem decodeWord_pushl (b : Byte) : decodeWord (0b011#3 ++ b) = .pushl b := by simp [decodeWord]

@[simp] theorem decodeWord_encode (i : Instr) : decodeWord (encode i) = i := by
  cases i with
  | rst => exact decodeWord_of_rst rfl
  | idle => exact decodeWord_idle 0
  | endFrame => exact decodeWord_endFrame 0
  | push b => rw [encode_push_eq_append, decodeWord_push]
  | pushl b => rw [encode_pushl_eq_append, decodeWord_pushl]

/-- The ports carry every 11-bit word, so the decoder on numbers refuses none. -/
theorem decodeNat_toNat (w : OpWord) : decodeNat w.toNat = .ok (decodeWord w) := by
  have hw : isOpWord w.toNat = true := decide_eq_true w.isLt
  simp [decodeNat, hw]

/-- Reading 11 bits or more of a word's number loses none of it. -/
theorem decodeTableWord_toNat (w : OpWord) {nbits : Nat} (h : 11 ≤ nbits) :
    decodeTableWord nbits w.toNat = some (decodeWord w) := by
  have hlt : w.toNat < 2 ^ nbits := w.isLt.trans_le (Nat.pow_le_pow_right (by decide) h)
  simp only [decodeTableWord, Nat.mod_eq_of_lt hlt, decodeNat_toNat]

/-- Settles O1: the canonical word is the operation's control field above its operand, which the decoder reads back. -/
theorem encodeThenDecode : Obligations.EncodeThenDecode := by
  intro i _
  refine ⟨decodeWord_encode i, fun nbits h => ?_⟩
  rw [decodeTableWord_toNat _ h, decodeWord_encode]

/-! ### The rows of the table (R77) -/

/-- The mask `0x400` keeps the port `rst`. -/
theorem opRst_of_and_mask {w : OpWord} (h : w &&& 0x400#11 = 0x400#11) : opRst w = true := by
  simpa [opRst] using congrArg (·.getLsbD 10) h

/-- The mask `0x700` keeps the control field. -/
theorem control_append_data_and_mask (c p : BitVec 3) (b : Byte) :
    (c ++ b) &&& 0x700#11 = p ++ 0#8 ↔ c = p := by
  have hmask : 0x700#11 = BitVec.allOnes 3 ++ 0#8 := rfl
  rw [hmask, BitVec.and_append, BitVec.and_allOnes, BitVec.and_zero, BitVec.append_left_inj]

/-- A word the mask `0x700` takes to a pattern is the pattern's control field above the word's own low byte. -/
theorem eq_append_of_and_mask {w : OpWord} (p : BitVec 3) (h : w &&& 0x700#11 = p ++ 0#8) : w = p ++ w.setWidth 8 := by
  obtain ⟨c, b, rfl⟩ := exists_eq_control_append_data w
  rw [(control_append_data_and_mask c p b).mp h, BitVec.setWidth_append_eq_right]

/-- No row of the table fixes a data bit. -/
theorem opTable_mask_eq_append {r : OpRow} (hr : r ∈ opTable) : ∃ m : BitVec 3, r.mask = m ++ 0#8 := by
  revert r
  decide

/-- Whether a row selects a word does not depend on the word's data. -/
theorem selects_append {r : OpRow} (hr : r ∈ opTable) (c : BitVec 3) (b : Byte) :
    r.selects (c ++ b) = r.selects (c ++ 0#8) := by
  obtain ⟨m, hm⟩ := opTable_mask_eq_append hr
  rw [OpRow.selects, OpRow.selects, hm, BitVec.and_append, BitVec.and_append, BitVec.and_zero, BitVec.and_zero]

/-- The row of the operation a word selects does not depend on the word's data. -/
theorem row_decodeWord_append (c : BitVec 3) (b : Byte) :
    (decodeWord (c ++ b)).row = (decodeWord (c ++ 0#8)).row := by
  simp only [decodeWord, opRst_append, opInValid_append, opInLast_append]
  cases c.getLsbD 2 <;> cases c.getLsbD 1 <;> cases c.getLsbD 0 <;> rfl

/-- Exactly one row of the table selects a word, the row of its operation: a question of the eight control fields. -/
theorem filter_selects_eq_row (w : OpWord) : opTable.filter (fun r => r.selects w) = [(decodeWord w).row] := by
  obtain ⟨c, b, rfl⟩ := exists_eq_control_append_data w
  rw [List.filter_congr fun r hr => selects_append hr c b, row_decodeWord_append]
  revert c
  decide

/-- Counting by blocks of `n` numbers: a predicate of the block number holds `n` times for each block it holds of. -/
theorem countP_range_blocks (q : Nat → Bool) {n : Nat} (hn : 0 < n) (m : Nat) :
    (List.range (n * m)).countP (fun v => q (v / n)) = n * (List.range m).countP q := by
  induction m with
  | zero => rfl
  | succ m ih =>
    have hblock : (List.range n).countP (fun k => q ((n * m + k) / n)) = n * if q m then 1 else 0 := by
      have hdiv : ∀ k ∈ List.range n, (n * m + k) / n = m := fun k hk => by
        rw [Nat.mul_add_div hn, Nat.div_eq_of_lt (List.mem_range.mp hk), Nat.add_zero]
      rw [List.countP_congr (q := fun _ => q m) fun k hk => by rw [hdiv k hk]]
      cases q m <;> simp
    rw [Nat.mul_succ, List.range_add, List.countP_append, ih, List.countP_map, List.range_succ, List.countP_append,
      List.countP_singleton, Nat.mul_add]
    exact congrArg (_ + ·) hblock

/-- A row selects 256 words for each control field it selects. -/
theorem length_filter_selects {r : OpRow} (hr : r ∈ opTable) :
    ((List.range 2048).filter fun v => r.selects (BitVec.ofNat 11 v)).length =
      256 * (List.range 8).countP fun c => r.selects (BitVec.ofNat 3 c ++ 0#8) := by
  rw [← countP_range_blocks _ (by decide), ← List.countP_eq_length_filter]
  refine List.countP_congr fun v _ => ?_
  rw [ofNat_eq_control_append_data, selects_append hr]

/-- Settles O2: the rows as masks of the control field, which has eight values, each before 256 data bytes. -/
theorem decodeFollowsTable : Obligations.DecodeFollowsTable := by
  refine ⟨fun w => ⟨?rst, ?idle, ?endFrame, ?push, ?pushl, ?one, filter_selects_eq_row w⟩, ?counts, rfl, rfl, rfl,
    fun b => ⟨encode_push_toNat b, encode_pushl_toNat b⟩⟩
  case rst => exact fun h => decodeWord_of_rst (opRst_of_and_mask h)
  case idle => exact fun h => by rw [eq_append_of_and_mask 0b000#3 h, decodeWord_idle]
  case endFrame => exact fun h => by rw [eq_append_of_and_mask 0b001#3 h, decodeWord_endFrame]
  case push => exact fun h => (congrArg decodeWord (eq_append_of_and_mask 0b010#3 h)).trans (decodeWord_push _)
  case pushl => exact fun h => (congrArg decodeWord (eq_append_of_and_mask 0b011#3 h)).trans (decodeWord_pushl _)
  case one => rw [filter_selects_eq_row, List.length_singleton]
  case counts =>
    rw [List.map_congr_left fun r hr => length_filter_selects hr]
    decide

/-- Settles O4: each word is the control field of its operation above a data byte. -/
theorem writtenWordsDecode : Obligations.WrittenWordsDecode :=
  ⟨decodeWord_of_rst rfl, decodeWord_of_rst rfl, decodeWord_of_rst rfl, decodeWord_of_rst rfl, decodeWord_idle 0x00,
    decodeWord_idle 0xFF, decodeWord_endFrame 0x00, decodeWord_endFrame 0xF0, decodeWord_push 0x00,
    decodeWord_push 0xF0, decodeWord_push 0xFF, decodeWord_pushl 0x00, decodeWord_pushl 0x55, decodeWord_pushl 0xFF⟩

/-! ### Ignored bits (R78) -/

/-- Words that agree under a mask agree in each bit of it. -/
theorem getLsbD_eq_of_agree {w v m : OpWord} (h : (w ^^^ v) &&& m = 0#11) {k : Nat} (hk : m.getLsbD k = true) :
    v.getLsbD k = w.getLsbD k := by
  have hbit := congrArg (·.getLsbD k) h
  simp only [BitVec.getLsbD_and, BitVec.getLsbD_xor, hk, Bool.and_true, BitVec.getLsbD_zero] at hbit
  exact (bne_eq_false_iff_eq.mp hbit).symm

/-- The decoder reads the bits that `readBits` names and no other: `rst` first, then `in_valid` and `in_last`, and the
data only where `in_valid` is up. -/
theorem decodeWord_eq_of_agree {w v : OpWord} (h : (w ^^^ v) &&& readBits w = 0#11) : decodeWord v = decodeWord w := by
  cases hrst : opRst w with
  | true =>
    rw [readBits, hrst, if_pos rfl] at h
    have hv : opRst v = true := (getLsbD_eq_of_agree h rfl).trans hrst
    rw [decodeWord_of_rst hrst, decodeWord_of_rst hv]
  | false =>
    rw [readBits, hrst, if_neg Bool.false_ne_true] at h
    cases hvalid : opInValid w with
    | true =>
      rw [hvalid, if_pos rfl] at h
      have hmask : (0x7FF : OpWord) = BitVec.allOnes 11 := rfl
      rw [hmask, BitVec.and_allOnes, BitVec.xor_eq_zero_iff] at h
      rw [h]
    | false =>
      rw [hvalid, if_neg Bool.false_ne_true] at h
      have hv : opRst v = false := (getLsbD_eq_of_agree h rfl).trans hrst
      have hvvalid : opInValid v = false := (getLsbD_eq_of_agree h rfl).trans hvalid
      have hvlast : opInLast v = opInLast w := getLsbD_eq_of_agree h rfl
      rw [decodeWord_of_ports hv, decodeWord_of_ports hrst, hvvalid, hvalid, hvlast]
      cases opInLast w <;> rfl

end Sys2Proof

namespace Sys2Proof.Machine

/-- Settles O3: the step on a listed word is a function of the operation decoded from it. -/
theorem ignoredBitsHaveNoEffect : Obligations.IgnoredBitsHaveNoEffect := by
  intro w v h s ws
  have hstep (u : OpWord) : step { s with pending := u :: ws } =
      .next ⟨perform Config.chip (decodeWord u) s.toBlock, { s.toProducer with pending := ws }⟩ :=
    step_of_pending rfl
  refine ⟨?_, _, hstep w⟩
  rw [hstep w, hstep v, decodeWord_eq_of_agree h]

/-! ### FRAME and FRAMEX (R92, R93) -/

@[simp] theorem stepWord_encode (cfg : Config) (s : Block) (i : Instr) :
    stepWord cfg s (encode i) = perform cfg i s := by
  rw [stepWord, decodeWord_encode]

/-- PUSHL is PUSH and then END (43_stream_ops.md R167, R178). -/
theorem perform_pushl (cfg : Config) (b : Byte) (s : Block) :
    perform cfg (.pushl b) s = perform cfg .endFrame (perform cfg (.push b) s) := rfl

/-- The operations of a program of canonical words, IDLE left out. -/
theorem activeOps_map_encode_push (bytes : List Byte) :
    activeOps (bytes.map fun b => encode (.push b)) = bytes.map .push := by
  induction bytes with
  | nil => rfl
  | cons b bytes ih => simp [activeOps_cons, isIdle, ih]

/-- `FRAME` of one byte or more: the last byte closes the frame. -/
theorem frameWords_concat (bytes : List Byte) (last : Byte) :
    frameWords (bytes ++ [last]) = bytes.map (fun b => encode (.push b)) ++ [encode (.pushl last)] := by
  induction bytes with
  | nil => rfl
  | cons b bytes ih =>
    cases bytes with
    | nil => rfl
    | cons c bytes => exact congrArg (encode (.push b) :: ·) ih

theorem presentsFrame_frameWords (raw : List Byte) : PresentsFrame raw (frameWords raw) := by
  rcases raw.eq_nil_or_concat' with rfl | ⟨bytes, last, rfl⟩
  · exact ⟨[], encode .endFrame, rfl, .inl ⟨decodeWord_encode _, rfl⟩⟩
  · exact ⟨_, _, frameWords_concat bytes last,
      .inr ⟨bytes, last, rfl, decodeWord_encode _, activeOps_map_encode_push bytes⟩⟩

theorem presentsFrame_frameXWords (raw : List Byte) : PresentsFrame raw (frameXWords raw) :=
  ⟨_, _, rfl, .inl ⟨decodeWord_encode _, activeOps_map_encode_push raw⟩⟩

/-- The two forms differ in the last byte alone, which FRAME carries in the closing word. -/
theorem runWords_frameWords (cfg : Config) (s : Block) (raw : List Byte) :
    runWords cfg s (frameWords raw) = runWords cfg s (frameXWords raw) := by
  rcases raw.eq_nil_or_concat' with rfl | ⟨bytes, last, rfl⟩
  · rfl
  · simp only [frameWords_concat, frameXWords, List.map_append, List.map_singleton, runWords_append, runWords_cons,
      runWords_nil, stepWord_encode, perform_pushl]

/-- Settles O6: both are pushes and a closing word, and PUSHL is PUSH and END. -/
theorem pseudoInstructionsPresentTheirBytes : Obligations.PseudoInstructionsPresentTheirBytes :=
  fun raw => ⟨presentsFrame_frameWords raw, presentsFrame_frameXWords raw, fun cfg s => runWords_frameWords cfg s raw⟩

/-- The operand of the source's example, read as bytes (R93). -/
theorem hexBytes_sourceExample :
    hexBytes ['F', '0', ' ', '0', '6', '0', '0', ' ', '0', '1', ' ', '0', '0', ' ', '0', '3', ' ', 'A', 'A', 'B', 'B',
      ' ', '5', '5'] = some [0xF0, 0x06, 0x00, 0x01, 0x00, 0x03, 0xAA, 0xBB, 0x55] := by decide

/-- Settles O5: nine bytes, eight of them pushed and the last closing the frame. -/
theorem sourceExampleAssembles : Obligations.SourceExampleAssembles := by
  unfold Obligations.SourceExampleAssembles
  rw [assemble, hexBytes_sourceExample]
  rfl

/-! ### The frame layout (R70; 40_frame_decode.md R101 to R108) -/

/-- A byte counted from the end of a sequence lies in its last part. -/
theorem getElem_append_from_end {α : Type} (front back : List α) {k : Nat} (hpos : 0 < k) (hk : k ≤ back.length)
    (h : (front ++ back).length - k < (front ++ back).length) :
    (front ++ back)[(front ++ back).length - k] = back[back.length - k] := by
  rw [List.getElem_append_right (by rw [List.length_append]; omega)]
  congr 1
  rw [List.length_append]
  omega

/-- A sequence of 3 or more ends in three elements. -/
theorem exists_append_three {α : Type} {l : List α} (h : 3 ≤ l.length) :
    ∃ front x y z, l = front ++ [x, y, z] := by
  obtain ⟨x, y, z, hback⟩ : ∃ x y z, l.drop (l.length - 3) = [x, y, z] :=
    List.length_eq_three.mp (by rw [List.length_drop]; omega)
  exact ⟨l.take (l.length - 3), x, y, z, by rw [← hback, List.take_append_drop]⟩

/-- What the decoder extracts from a header, a payload and a trailer (R70). -/
theorem decodeFrame_layout (b0 b1 b2 b3 b4 b5 c0 c1 e : Byte) (payload : List Byte) :
    decodeFrame ([b0, b1, b2, b3, b4, b5] ++ payload ++ [c0, c1, e]) = .fields
      { n := payload.length + 9
        som := b0
        dl := le16 b1 b2
        cls := b3
        seq := b4
        typ := b5
        paylen := payload.length
        dchk := le16 c0 c1
        eom := e } := by
  have hlen : ([b0, b1, b2, b3, b4, b5] ++ payload ++ [c0, c1, e]).length = payload.length + 9 := by simp
  rw [decodeFrame_long _ (by omega), getElem_append_from_end (k := 3) _ _ (by decide) (by simp),
    getElem_append_from_end (k := 2) _ _ (by decide) (by simp),
    getElem_append_from_end (k := 1) _ _ (by decide) (by simp)]
  simp only [hlen]
  rfl

/-- The payload is what lies between the header and the trailer (40_frame_decode.md R106). -/
theorem payloadOf_layout (b0 b1 b2 b3 b4 b5 c0 c1 e : Byte) (payload : List Byte) :
    payloadOf ([b0, b1, b2, b3, b4, b5] ++ payload ++ [c0, c1, e]) = payload := by
  have htake := List.take_left' (l₁ := [b0, b1, b2, b3, b4, b5] ++ payload) (l₂ := [c0, c1, e]) rfl
  rw [payloadOf, trlLen_eq, hdrLen_eq, List.length_append, List.length_cons, List.length_cons, List.length_singleton,
    Nat.add_sub_cancel, htake]
  rfl

/-- A sequence of 9 bytes or more has a header of six, a trailer of three and a payload between them. -/
theorem exists_layout {raw : List Byte} (h : 9 ≤ raw.length) : ∃ b0 b1 b2 b3 b4 b5 c0 c1 e payload,
    raw = b0 :: b1 :: b2 :: b3 :: b4 :: b5 :: (payload ++ [c0, c1, e]) := by
  match raw with
  | b0 :: b1 :: b2 :: b3 :: b4 :: b5 :: rest =>
    obtain ⟨payload, c0, c1, e, rfl⟩ := exists_append_three (l := rest) (by simpa using h)
    exact ⟨b0, b1, b2, b3, b4, b5, c0, c1, e, payload, rfl⟩

/-- Settles O25: the decoder's fields and the payload of the layout, which every sequence past the gate has. -/
theorem decoderReadsTheLayout : Obligations.DecoderReadsTheLayout := by
  refine ⟨fun b0 b1 b2 b3 b4 b5 c0 c1 e payload => ?_, fun raw h => exists_layout h⟩
  exact ⟨_, decodeFrame_layout b0 b1 b2 b3 b4 b5 c0 c1 e payload, rfl, rfl, le16_toNat b1 b2, rfl, rfl, rfl, rfl,
    le16_toNat c0 c1, rfl, payloadOf_layout b0 b1 b2 b3 b4 b5 c0 c1 e payload⟩

end Sys2Proof.Machine

/-! SUPPORT. Proofs about the gate on the actual length (40_frame_decode.md R100). -/

namespace Sys2Proof.Machine

/-! ### The registers of a report that is `Invalid` (R100; 60_exceptions.md R202) -/

/-- An `Invalid` report's length is below 9, so register `S1` holds it unsaturated. -/
theorem enc_invalid_s1_toNat (n : Fin 9) : (enc (.invalid n)).s1.toNat = n.val :=
  (BitVec.toNat_ofNat n.val 17).trans (Nat.mod_eq_of_lt (by omega))

/-- Of all diagnostics exactly DG1 asks for `INVALID = 1` (60_exceptions.md R201, R202 (a)). -/
theorem signalled_of_invalid {r : Result} (hdone : (flagsOf r).done = true) (hinvalid : (flagsOf r).invalid = true)
    (d : Diagnostic) : signalled r d = decide (d = .invalidMessage) := by
  cases d <;> simp [signalled, hdone, hinvalid]

theorem diagnosticsOf_of_invalid {r : Result} (hdone : (flagsOf r).done = true)
    (hinvalid : (flagsOf r).invalid = true) : diagnosticsOf r = [.invalidMessage] := by
  rw [diagnosticsOf, funext (signalled_of_invalid hdone hinvalid)]
  decide

theorem diagnosticsOf_enc_invalid (n : Fin 9) : diagnosticsOf (enc (.invalid n)) = [.invalidMessage] :=
  diagnosticsOf_of_invalid (by rw [flagsOf_enc_invalid]) (by rw [flagsOf_enc_invalid])

/-! ### Both sides of the gate -/

/-- The decoder before the gate (R100); `decodeFrame_long` is the other side. -/
theorem decodeFrame_short {raw : List Byte} (h : raw.length < 9) : decodeFrame raw = .tooShort ⟨raw.length, h⟩ :=
  dif_pos h

/-- Settles O26: before the gate the report is `Invalid` and its registers are those of `enc (.invalid n)`; past it the
decoder's fields carry their length into the report. -/
theorem shortFramesAreInvalid : Obligations.ShortFramesAreInvalid := by
  refine fun cfg raw => ⟨fun hshort => ?short, fun hlong => ?long⟩
  case short =>
    rw [validate_short cfg raw hshort]
    exact ⟨decodeFrame_short hshort, rfl, rfl, enc_invalid_s1_toNat _, diagnosticsOf_enc_invalid _⟩
  case long =>
    obtain ⟨d, hd, hn, -⟩ := validate_long cfg hlong
    exact ⟨_, d, decodeFrame_long raw hlong, rfl, hd, hn⟩

end Sys2Proof.Machine

/-! SUPPORT. Proofs about the checksum engine and the checksum-only core (42_checksum_core.md). -/

namespace Sys2Proof.Machine

/-! ### The two positions and what is read there (R136 to R138) -/

/-- A position has a byte exactly when it lies inside the frame (00_scope.md R14; 20_memory.md R59). -/
theorem frameRead_isSome_iff (raw : List Byte) (k : Int) :
    (frameRead raw k).isSome = true ↔ 0 ≤ k ∧ k < raw.length := by
  rcases lt_or_ge k 0 with hneg | hnat
  · rw [frameRead_negative raw k hneg, Option.isSome_none]
    simp [hneg]
  · obtain ⟨m, rfl⟩ := Int.eq_ofNat_of_zero_le hnat
    simp

theorem frameRead_lowPosition_isSome_iff (raw : List Byte) (dl : Half) :
    (frameRead raw (lowPosition dl)).isSome = true ↔ 3 ≤ dl.toNat ∧ dl.toNat ≤ raw.length + 2 := by
  rw [frameRead_isSome_iff, lowPosition]
  omega

theorem frameRead_highPosition_isSome_iff (raw : List Byte) (dl : Half) :
    (frameRead raw (highPosition dl)).isSome = true ↔ 2 ≤ dl.toNat ∧ dl.toNat ≤ raw.length + 1 := by
  rw [frameRead_isSome_iff, highPosition]
  omega

/-- Where the integer subtraction of R136 is not negative, the read is at the natural index. -/
theorem frameRead_lowPosition (raw : List Byte) {dl : Half} (h : 3 ≤ dl.toNat) :
    frameRead raw (lowPosition dl) = raw[dl.toNat - 3]? := by
  have hpos : lowPosition dl = ((dl.toNat - 3 : Nat) : Int) := (Int.ofNat_sub h).symm
  rw [hpos, frameRead_nat]

theorem frameRead_highPosition (raw : List Byte) {dl : Half} (h : 2 ≤ dl.toNat) :
    frameRead raw (highPosition dl) = raw[dl.toNat - 2]? := by
  have hpos : highPosition dl = ((dl.toNat - 2 : Nat) : Int) := (Int.ofNat_sub h).symm
  rw [hpos, frameRead_nat]

/-! ### The checksum outcome (R137 to R140) -/

/-- The outcome from the two bytes at their natural indices. -/
theorem chkOutcome_of_bytes {raw : List Byte} {f : Fields} {lo hi : Byte} (h : 3 ≤ f.dl.toNat)
    (hlo : raw[f.dl.toNat - 3]? = some lo) (hhi : raw[f.dl.toNat - 2]? = some hi) :
    chkOutcome raw f = .available (le16 lo hi) (decide (f.dchk = le16 lo hi)) :=
  chkOutcome_available ((frameRead_lowPosition raw h).trans hlo)
    ((frameRead_highPosition raw (Nat.le_of_succ_le h)).trans hhi)

/-- Inside the range of R138 both bytes exist. -/
theorem exists_checksum_bytes {raw : List Byte} {dl : Half} (hlow : 3 ≤ dl.toNat)
    (hhigh : dl.toNat ≤ raw.length + 1) :
    ∃ lo hi, raw[dl.toNat - 3]? = some lo ∧ raw[dl.toNat - 2]? = some hi :=
  ⟨_, _, List.getElem?_eq_getElem (by omega), List.getElem?_eq_getElem (by omega)⟩

/-- Outside the range of R138 one of the two bytes is missing: the low one below it, the high one above. -/
theorem chkOutcome_outside {raw : List Byte} {f : Fields}
    (h : ¬ (3 ≤ f.dl.toNat ∧ f.dl.toNat ≤ raw.length + 1)) : chkOutcome raw f = .unavailable := by
  rcases Nat.lt_or_ge f.dl.toNat 3 with hbelow | habove
  · refine chkOutcome_low_none (Option.not_isSome_iff_eq_none.mp ?_)
    rw [frameRead_lowPosition_isSome_iff]
    omega
  · refine chkOutcome_high_none (Option.not_isSome_iff_eq_none.mp ?_)
    rw [frameRead_highPosition_isSome_iff]
    omega

theorem chkOutcome_ne_unavailable_iff (raw : List Byte) (f : Fields) :
    chkOutcome raw f ≠ .unavailable ↔ 3 ≤ f.dl.toNat ∧ f.dl.toNat ≤ raw.length + 1 := by
  refine ⟨not_imp_comm.mp chkOutcome_outside, fun ⟨hlow, hhigh⟩ => ?_⟩
  obtain ⟨lo, hi, hlo, hhi⟩ := exists_checksum_bytes hlow hhigh
  rw [chkOutcome_of_bytes hlow hlo hhi]
  exact Checksum.noConfusion

theorem checksumAvailBit_iff (c : Checksum) : checksumAvailBit c = true ↔ c ≠ .unavailable := by
  cases c <;> simp [checksumAvailBit]

/-- Settles O27: each position by its read, both together by the outcome, and the flag by the encoding. -/
theorem checksumAvailabilityRange : Obligations.ChecksumAvailabilityRange := by
  refine fun cfg raw f hf => ⟨frameRead_lowPosition_isSome_iff raw f.dl, frameRead_highPosition_isSome_iff raw f.dl,
    chkOutcome_ne_unavailable_iff raw f, ?flag⟩
  case flag =>
    rw [validate_of_fields cfg hf, enc, flagsOf_encDecoded, ← chkOutcome_ne_unavailable_iff]
    exact checksumAvailBit_iff _

/-! ### The outcome against the declared checksum (R144, R145) -/

/-- Where the fields the checksum engine compares stand in the frame they were extracted from (40_frame_decode.md
R101 to R108). -/
structure ExtractedFrom (raw : List Byte) (f : Fields) : Prop where
  long : 9 ≤ raw.length
  n : f.n = raw.length
  cls : raw[3]? = some f.cls
  seq : raw[4]? = some f.seq
  typ : raw[5]? = some f.typ
  dchk : ∃ c0 c1, raw[raw.length - 3]? = some c0 ∧ raw[raw.length - 2]? = some c1 ∧ f.dchk = le16 c0 c1
  eom : raw[raw.length - 1]? = some f.eom

theorem extractedFrom_of_decodeFrame {raw : List Byte} {f : Fields} (h : decodeFrame raw = .fields f) :
    ExtractedFrom raw f := by
  rcases Nat.lt_or_ge raw.length 9 with hshort | hlong
  · rw [decodeFrame_short hshort] at h
    cases h
  · rw [decodeFrame_long raw hlong] at h
    cases h
    exact ⟨hlong, rfl, List.getElem?_eq_getElem _, List.getElem?_eq_getElem _, List.getElem?_eq_getElem _,
      ⟨_, _, List.getElem?_eq_getElem _, List.getElem?_eq_getElem _, rfl⟩, List.getElem?_eq_getElem _⟩

/-- The checksum is valid where the two bytes read are those of the declared checksum. -/
theorem ExtractedFrom.chkOutcome_valid {raw : List Byte} {f : Fields} (h : ExtractedFrom raw f)
    (hlow : 3 ≤ f.dl.toNat) (hlo : raw[f.dl.toNat - 3]? = raw[raw.length - 3]?)
    (hhi : raw[f.dl.toNat - 2]? = raw[raw.length - 2]?) : chkOutcome raw f = .available f.dchk true := by
  obtain ⟨c0, c1, hc0, hc1, hdchk⟩ := h.dchk
  rw [chkOutcome_of_bytes hlow (hlo.trans hc0) (hhi.trans hc1), hdchk, decide_eq_true rfl]

/-- A declared length that is the actual one addresses the declared checksum itself (R144). -/
theorem ExtractedFrom.chkOutcome_of_right_length {raw : List Byte} {f : Fields} (h : ExtractedFrom raw f)
    (hlen : f.dl.toNat = raw.length) : chkOutcome raw f = .available f.dchk true := by
  have hlong := h.long
  exact h.chkOutcome_valid (by omega) (by rw [hlen]) (by rw [hlen])

theorem ExtractedFrom.lengthValid_iff {raw : List Byte} {f : Fields} (h : ExtractedFrom raw f) :
    lengthValid f = true ↔ f.dl.toNat = raw.length := by
  rw [lengthValid, h.n]
  exact decide_eq_true_iff

/-- A decoded report is the one of the fields the decoder extracted (R147). -/
theorem exists_fields_of_validate_decoded {cfg : Config} {raw : List Byte} {d : DecodedReport}
    (h : validate cfg raw = .decoded d) :
    ∃ f, decodeFrame raw = .fields f ∧ d = reportOf f (checkFields cfg f) (chkFrame raw f) := by
  rcases Nat.lt_or_ge raw.length 9 with hshort | hlong
  · rw [validate_short cfg raw hshort] at h
    cases h
  · have hf := decodeFrame_long raw hlong
    rw [validate_of_fields cfg hf] at h
    cases h
    exact ⟨_, hf, rfl⟩

/-- Settles O28: "length valid" puts both positions on the declared checksum. -/
theorem rightLengthForcesValidChecksum : Obligations.RightLengthForcesValidChecksum := by
  intro cfg raw d hd hlenOk
  obtain ⟨f, hf, rfl⟩ := exists_fields_of_validate_decoded hd
  have hex := extractedFrom_of_decodeFrame hf
  exact hex.chkOutcome_of_right_length (hex.lengthValid_iff.mp hlenOk)

/-- Settles O29: the report's outcome is `chkOutcome`, and each row of R145 names the bytes at `dl - 3` and `dl - 2`. -/
theorem checksumCaseTable : Obligations.ChecksumCaseTable := by
  intro cfg raw f hf
  have hex := extractedFrom_of_decodeFrame hf
  have hlong := hex.long
  refine ⟨_, validate_of_fields cfg hf, hex.lengthValid_iff, fun hdl => ?below, fun hdl => ?above,
    fun hlow hhigh => ?inside, fun hdl => ?six, fun hdl => ?seven, hex.chkOutcome_of_right_length, fun hdl => ?oneMore⟩
  case below => exact chkOutcome_outside (by omega)
  case above => exact chkOutcome_outside (by omega)
  case inside =>
    obtain ⟨lo, hi, hlo, hhi⟩ := exists_checksum_bytes hlow hhigh
    exact ⟨lo, hi, hlo, hhi, chkOutcome_of_bytes hlow hlo hhi⟩
  case six => exact chkOutcome_of_bytes (by omega) (by rw [hdl]; exact hex.cls) (by rw [hdl]; exact hex.seq)
  case seven => exact chkOutcome_of_bytes (by omega) (by rw [hdl]; exact hex.seq) (by rw [hdl]; exact hex.typ)
  case oneMore =>
    obtain ⟨-, c1, -, hc1, -⟩ := hex.dchk
    have hlo : raw[f.dl.toNat - 3]? = some c1 := by rw [hdl]; exact hc1
    have hhi : raw[f.dl.toNat - 2]? = some f.eom := by rw [hdl]; exact hex.eom
    exact ⟨c1, hc1, chkOutcome_of_bytes (by omega) hlo hhi⟩

/-! ### A valid checksum at a wrong length (R145; 70_reset_and_hazards.md R230) -/

/-- A frame of `n` bytes that declares the length `dl` and is otherwise zero, but for the declared checksum where `dl`
of 3 or 4 addresses its own low byte: `dl = 3` reads that byte as the high one, `dl = 4` as the low one. -/
def misdeclaredFrame (n dl : Nat) : List Byte :=
  [0, BitVec.ofNat 8 dl, BitVec.ofNat 8 (dl / 256), 0, 0, 0] ++ List.replicate (n - 9) 0 ++
    [if dl = 4 then 4 else 0, if dl = 3 then 3 else 0, 0]

theorem length_misdeclaredFrame {n : Nat} (h : 9 ≤ n) (dl : Nat) : (misdeclaredFrame n dl).length = n := by
  obtain ⟨m, rfl⟩ := Nat.exists_eq_add_of_le' h
  simp [misdeclaredFrame]

/-- Its declared length, as the decoder reads it. -/
theorem decodeFrame_misdeclaredFrame (n : Nat) {dl : Nat} (h : dl < 65536) :
    ∃ f, decodeFrame (misdeclaredFrame n dl) = .fields f ∧ f.dl.toNat = dl := by
  refine ⟨_, decodeFrame_layout .., ?_⟩
  rw [le16_toNat, BitVec.toNat_ofNat, BitVec.toNat_ofNat]
  omega

/-- Its declared checksum, at the two indices before the last. -/
theorem misdeclaredFrame_trailer {n : Nat} (h : 9 ≤ n) (dl : Nat) :
    (misdeclaredFrame n dl)[n - 3]? = some (if dl = 4 then 4 else 0) ∧
      (misdeclaredFrame n dl)[n - 2]? = some (if dl = 3 then 3 else 0) := by
  obtain ⟨m, rfl⟩ := Nat.exists_eq_add_of_le' h
  simp [misdeclaredFrame]

/-- From `dl = 5` on it is zero past the declared length. -/
theorem misdeclaredFrame_getElem?_zero {n dl k : Nat} (hn : 9 ≤ n) (hdl : 5 ≤ dl) (hk : 3 ≤ k) (hkn : k < n) :
    (misdeclaredFrame n dl)[k]? = some 0 := by
  have hzero : misdeclaredFrame n dl = [0, BitVec.ofNat 8 dl, BitVec.ofNat 8 (dl / 256)] ++
      (List.replicate 3 0 ++ (List.replicate (n - 9) 0 ++ List.replicate 3 0)) := by
    rw [misdeclaredFrame, if_neg (by omega), if_neg (by omega)]
    simp
  rw [hzero, List.replicate_append_replicate, List.replicate_append_replicate, List.getElem?_append_right hk,
    List.getElem?_replicate_of_lt]
  simp only [List.length_cons, List.length_nil]
  omega

/-- The two bytes its declared length addresses are those of its declared checksum: bytes of the header for a declared
length of 3, 4 or 5, zeros past the declared length from 6 on. -/
theorem misdeclaredFrame_bytes {n dl : Nat} (hn : 9 ≤ n) (hlow : 3 ≤ dl) (hhigh : dl ≤ n + 1) :
    (misdeclaredFrame n dl)[dl - 3]? = (misdeclaredFrame n dl)[n - 3]? ∧
      (misdeclaredFrame n dl)[dl - 2]? = (misdeclaredFrame n dl)[n - 2]? := by
  obtain ⟨hc0, hc1⟩ := misdeclaredFrame_trailer hn dl
  rw [hc0, hc1]
  obtain rfl | rfl | rfl | hpast : dl = 3 ∨ dl = 4 ∨ dl = 5 ∨ 6 ≤ dl := by omega
  · exact ⟨rfl, rfl⟩
  · exact ⟨rfl, rfl⟩
  · exact ⟨rfl, rfl⟩
  · rw [if_neg (by omega), if_neg (by omega)]
    exact ⟨misdeclaredFrame_getElem?_zero hn (by omega) (by omega) (by omega),
      misdeclaredFrame_getElem?_zero hn (by omega) (by omega) (by omega)⟩

/-- Settles O30 by the frame `misdeclaredFrame n dl`. -/
theorem validChecksumDoesNotForceLength : Obligations.ValidChecksumDoesNotForceLength := by
  intro cfg n dl hn hlow hhigh hbound hne
  have hlen := length_misdeclaredFrame hn dl
  obtain ⟨hlo, hhi⟩ := misdeclaredFrame_bytes hn hlow hhigh
  obtain ⟨f, hf, hdl⟩ := decodeFrame_misdeclaredFrame n hbound
  have hex := extractedFrom_of_decodeFrame hf
  refine ⟨misdeclaredFrame n dl, _, f.dchk, hlen, validate_of_fields cfg hf, hdl, ?lenOk, ?chk⟩
  case lenOk =>
    refine Bool.eq_false_iff.mpr fun hlenOk => hne ?_
    rw [← hdl, hex.lengthValid_iff.mp hlenOk, hlen]
  case chk => exact hex.chkOutcome_valid (by omega) (by rw [hdl, hlen, hlo]) (by rw [hdl, hlen, hhi])

/-! ### The checksum-only core (R143) -/

/-- The core where both positions are inside the frame. -/
theorem chkCore_inside {n : Count} {dl : Half} (h : 3 ≤ dl.toNat ∧ dl.toNat ≤ n.toNat + 1) (dchk : Half)
    (bLo bHi : Byte) :
    chkCore n dl dchk bLo bHi =
      ⟨decide (dl.toNat = n.toNat), true, le16 bLo bHi, decide (dchk = le16 bLo bHi)⟩ := by
  simp [chkCore, (checksumAvailable_iff n dl).mpr h]

/-- The core where they are not: the two bytes are ignored. -/
theorem chkCore_outside {n : Count} {dl : Half} (h : ¬ (3 ≤ dl.toNat ∧ dl.toNat ≤ n.toNat + 1)) (dchk : Half)
    (bLo bHi : Byte) : chkCore n dl dchk bLo bHi = ⟨decide (dl.toNat = n.toNat), false, 0, false⟩ := by
  simp [chkCore, Bool.eq_false_iff.mpr (mt (checksumAvailable_iff n dl).mp h)]

theorem saturatedCount_toNat (n : Nat) : (saturatedCount n).toNat = min n 65536 := by
  rw [saturatedCount, cntSat_eq, BitVec.toNat_ofNat]
  omega

/-- The core on the saturated count is the encoded outcome of `Chk`: a 16-bit declared length compares with that count,
and with one more, as with the actual length. -/
theorem chkCore_saturatedCount_eq_chkFrame {raw : List Byte} {f : Fields} {bLo bHi : Byte} (h : ExtractedFrom raw f)
    (hbytes : 3 ≤ f.dl.toNat → f.dl.toNat ≤ raw.length + 1 →
      raw[f.dl.toNat - 3]? = some bLo ∧ raw[f.dl.toNat - 2]? = some bHi) :
    chkCore (saturatedCount raw.length) f.dl f.dchk bLo bHi =
      ⟨(chkFrame raw f).1, checksumAvailBit (chkFrame raw f).2, checksumHalf (chkFrame raw f).2,
        checksumOkBit (chkFrame raw f).2⟩ := by
  have hbound := f.dl.isLt
  have hcnt := saturatedCount_toNat raw.length
  have hlen : decide (f.dl.toNat = (saturatedCount raw.length).toNat) = (chkFrame raw f).1 := by
    rw [chkFrame, lengthValid, h.n, decide_eq_decide]
    omega
  by_cases hin : 3 ≤ f.dl.toNat ∧ f.dl.toNat ≤ raw.length + 1
  · obtain ⟨hlo, hhi⟩ := hbytes hin.1 hin.2
    have hout : (chkFrame raw f).2 = _ := chkOutcome_of_bytes hin.1 hlo hhi
    rw [chkCore_inside (by omega), hlen, hout]
    rfl
  · have hout : (chkFrame raw f).2 = .unavailable := chkOutcome_outside hin
    rw [chkCore_outside (by omega), hlen, hout]
    rfl

/-- The close contains exactly the core, on the working registers (43_stream_ops.md R165). -/
theorem chkCore_eq_latchDecoded (cfg : Config) (w : Working) :
    chkCore w.cnt (declaredLength w) (declaredChecksum w) (lowByte w) (highByte w) =
      ⟨(flagsOf (latchDecoded cfg w)).lenOk, (flagsOf (latchDecoded cfg w)).chkAvail, (latchDecoded cfg w).s8,
        (flagsOf (latchDecoded cfg w)).chkOk⟩ := by
  rw [flagsOf_latchDecoded]
  rfl

/-- Settles O31: the core's two cases, the encoded outcome of `Chk` in each, and the close by what it latches. -/
theorem coreIsTheReferenceFunction : Obligations.CoreIsTheReferenceFunction := by
  refine ⟨fun n dl dchk bLo bHi => ?outputs, fun raw f bLo bHi hf => ?reference, fun s hlong => ?close⟩
  case outputs =>
    by_cases hin : 3 ≤ dl.toNat ∧ dl.toNat ≤ n.toNat + 1
    · rw [chkCore_inside hin, ← le16_toNat]
      exact ⟨decide_eq_true_iff, iff_of_true rfl hin,
        fun _ => ⟨rfl, decide_eq_true_iff.trans BitVec.toNat_inj.symm⟩, fun h => absurd h Bool.false_ne_true.symm⟩
    · rw [chkCore_outside hin]
      exact ⟨decide_eq_true_iff, iff_of_false Bool.false_ne_true hin, fun h => absurd h Bool.false_ne_true,
        fun _ => ⟨rfl, rfl⟩⟩
  case reference => exact chkCore_saturatedCount_eq_chkFrame (extractedFrom_of_decodeFrame hf)
  case close => exact ⟨_, exec_endFrame_long hlong, chkCore_eq_latchDecoded Config.chip s.work⟩

end Sys2Proof.Machine

/-! SUPPORT. Proofs about the five operations, one by one: encoding, registers written and registers kept
(43_stream_ops.md R155 to R167, R171, R179). -/

namespace Sys2Proof.Machine

/-! ### The word of an operation (R155; 30_encoding.md R77) -/

/-- A word whose control field is `c` is `c` above its data. -/
theorem eq_control_append_data {w : OpWord} {c : BitVec 3} (h : w.extractLsb' 8 3 = c) :
    w = c ++ w.extractLsb' 0 8 := by
  obtain ⟨c', b, rfl⟩ := exists_eq_control_append_data w
  rw [BitVec.extractLsb'_append_eq_left] at h
  rw [h, BitVec.extractLsb'_append_eq_right]

/-- The next word and what is left, where none is listed (log 1). -/
theorem nextWord_of_nil {p : Producer} (h : p.pending = []) : nextWord p = Config.producerWord p.drawn := by
  unfold nextWord; rw [h]

theorem takeWord_of_nil {p : Producer} (h : p.pending = []) : takeWord p = { p with drawn := p.drawn + 1 } := by
  unfold takeWord; rw [h]

/-- Settles O7: the step by its definition, the word taken by whether one is listed. -/
theorem stepRunsTheDecodedOperation : Obligations.StepRunsTheDecodedOperation := by
  refine fun s => ⟨fun i hi => ?_, fun w ws h => ⟨nextWord_of_pending h, takeWord_of_pending h⟩,
    fun h => ⟨nextWord_of_nil h, takeWord_of_nil h⟩⟩
  rw [step, hi]

/-! ### Totality (R171) -/

/-- An outcome that is a next state is no other. -/
theorem existsUnique_next {o : Host.Outcome State Fault Refusal} {t : State} (h : o = .next t) : ∃! t, o = .next t :=
  ⟨t, h, fun _ h' => Host.Outcome.next.inj (h'.symm.trans h)⟩

/-- Settles O8: every operation answers the state `perform` gives, so a step does. -/
theorem everyStepAnswersOneNextState : Obligations.EveryStepAnswersOneNextState :=
  ⟨fun s => existsUnique_next (step_eq s), fun _ _ _ => existsUnique_next (step_eq _),
    fun i s => existsUnique_next (exec_eq_perform i s), fun _ _ _ => existsUnique_eq'⟩

/-! ### RST and IDLE (R156, R157) -/

/-- Settles O10: RST answers `Block.reset` whatever the registers held. -/
theorem resetClearsEveryRegister : Obligations.ResetClearsEveryRegister :=
  ⟨fun _ h => decodeWord_of_rst h, exec_eq_perform .rst, exec_eq_perform .rst State.reset⟩

/-- Settles O11: IDLE answers the state itself, the strobe lowered. -/
theorem idleOnlyLowersTheStrobe : Obligations.IdleOnlyLowersTheStrobe := by
  refine ⟨fun w h => ?_, exec_eq_perform .idle⟩
  rw [eq_control_append_data h, decodeWord_idle]

/-! ### PUSH (R159) -/

/-- Past the header a byte leaves every latch as it is (10_state.md R22). -/
theorem acceptByte_header (b : Byte) {w : Working} (h : 6 ≤ w.cnt.toNat) :
    (acceptByte b w).hdr0 = w.hdr0 ∧ (acceptByte b w).hdr1 = w.hdr1 ∧ (acceptByte b w).hdr2 = w.hdr2 ∧
      (acceptByte b w).hdr3 = w.hdr3 ∧ (acceptByte b w).hdr4 = w.hdr4 ∧ (acceptByte b w).hdr5 = w.hdr5 :=
  ⟨if_neg (by omega), if_neg (by omega), if_neg (by omega), if_neg (by omega), if_neg (by omega), if_neg (by omega)⟩

/-- At the saturated count a byte moves the window and nothing else: no 16-bit declared length puts a captured position
there (10_state.md R21, R24). -/
theorem acceptByte_of_saturated (b : Byte) {w : Working} (h : w.cnt.toNat = 65536) :
    acceptByte b w = { w with tr0 := w.tr1, tr1 := w.tr2, tr2 := b } := by
  have hbound := (declaredLength w).isLt
  have hcnt : (acceptByte b w).cnt = w.cnt := BitVec.eq_of_toNat_eq (by rw [acceptByte_cnt_toNat]; omega)
  obtain ⟨h0, h1, h2, h3, h4, h5⟩ := acceptByte_header b (w := w) (by omega)
  have hlo : (acceptByte b w).capLo = w.capLo := (acceptByte_capLo b w).trans (if_neg (by omega))
  have hhi : (acceptByte b w).capHi = w.capHi := (acceptByte_capHi b w).trans (if_neg (by omega))
  exact (Working.mk.injEq ..).mpr ⟨hcnt, h0, h1, h2, h3, h4, h5, rfl, rfl, rfl, hlo, hhi⟩

/-- Settles O12: PUSH is `acceptByte` on the working registers. -/
theorem pushTransfersRegisters : Obligations.PushTransfersRegisters := by
  refine ⟨fun w h => ?encoding, fun b s => ⟨_, exec_eq_perform (.push b) s, acceptByte_headerLatch b s.work, ?capLo,
    ?capHi, rfl, rfl, rfl, acceptByte_cnt_toNat b s.work, acceptByte_of_saturated b, rfl, rfl, rfl⟩⟩
  case encoding => exact (congrArg decodeWord (eq_control_append_data h)).trans (decodeWord_push _)
  case capLo => rw [← declaredLength_toNat]; exact acceptByte_capLo b s.work
  case capHi => rw [← declaredLength_toNat]; exact acceptByte_capHi b s.work

/-! ### END (R165, R166) -/

/-- END: the exact next state. -/
theorem exec_endFrame_eq (s : State) :
    exec .endFrame s =
      .next { s with work := Working.cleared, res := latchReport Config.chip s.work, rptValid := true } :=
  exec_eq_perform .endFrame s

theorem exec_endFrame_short {s : State} (h : s.work.cnt.toNat < 9) :
    exec .endFrame s = .next { s with work := Working.cleared, res := latchInvalid s.work, rptValid := true } := by
  rw [exec_endFrame_eq, latchReport_short _ _ h]

/-- The byte the close reads at `dl - 3` is the latch there, or `cap_lo` past the header. -/
theorem lowByte_eq_of_source {w : Working} {lo : Byte} (hdl : 3 ≤ (declaredLength w).toNat)
    (h : if (declaredLength w).toNat - 3 ≤ 5 then headerLatch w (((declaredLength w).toNat - 3 : Nat) : Int) = some lo
      else lo = w.capLo) : lowByte w = lo := by
  split at h
  next hheader => exact Option.some_inj.mp ((lowByte_header w _ hheader (by omega)).trans h)
  next hpast => exact (lowByte_captured w (by omega)).trans h.symm

/-- The byte the close reads at `dl - 2` is the latch there, or `cap_hi` past the header. -/
theorem highByte_eq_of_source {w : Working} {hi : Byte} (hdl : 2 ≤ (declaredLength w).toNat)
    (h : if (declaredLength w).toNat - 2 ≤ 5 then headerLatch w (((declaredLength w).toNat - 2 : Nat) : Int) = some hi
      else hi = w.capHi) : highByte w = hi := by
  split at h
  next hheader => exact Option.some_inj.mp ((highByte_header w _ hheader (by omega)).trans h)
  next hpast => exact (highByte_captured w (by omega)).trans h.symm

/-- The status bits a close of 9 bytes or more latches, but for `CHK_OK` (R165; 10_state.md R28). -/
theorem latchDecoded_statusBits (cfg : Config) (w : Working) :
    (latchDecoded cfg w).s0.getLsbD 0 = true ∧ (latchDecoded cfg w).s0.getLsbD 1 = false ∧
      ((latchDecoded cfg w).s0.getLsbD 2 = true ↔ w.hdr0 = 0xF0#8) ∧
      (latchDecoded cfg w).s0.getLsbD 3 = cfg.classMap w.hdr3 ∧
      (latchDecoded cfg w).s0.getLsbD 4 = cfg.typeMap w.hdr5 ∧
      ((latchDecoded cfg w).s0.getLsbD 5 = true ↔ w.tr2 = 0x55#8) ∧
      ((latchDecoded cfg w).s0.getLsbD 6 = true ↔ (declaredLength w).toNat = w.cnt.toNat) ∧
      ((latchDecoded cfg w).s0.getLsbD 7 = true ↔
        3 ≤ (declaredLength w).toNat ∧ (declaredLength w).toNat ≤ w.cnt.toNat + 1) ∧
      ((latchDecoded cfg w).s0.getLsbD 9 = true ↔ w.cnt.toNat = 65536) := by
  have hflags := flagsOf_latchDecoded cfg w
  exact ⟨congrArg (·.done) hflags, congrArg (·.invalid) hflags,
    (Bool.eq_iff_iff.mp (congrArg (·.somOk) hflags)).trans beq_iff_eq, congrArg (·.classOk) hflags,
    congrArg (·.typeOk) hflags, (Bool.eq_iff_iff.mp (congrArg (·.eomOk) hflags)).trans beq_iff_eq,
    (Bool.eq_iff_iff.mp (congrArg (·.lenOk) hflags)).trans decide_eq_true_iff,
    (Bool.eq_iff_iff.mp (congrArg (·.chkAvail) hflags)).trans (checksumAvailable_iff _ _),
    (Bool.eq_iff_iff.mp (congrArg (·.lenSat) hflags)).trans decide_eq_true_iff⟩

/-- Where the checksum is unavailable the close latches neither verdict nor value. -/
theorem latchDecoded_unavailable (cfg : Config) {w : Working}
    (h : ¬ (3 ≤ (declaredLength w).toNat ∧ (declaredLength w).toNat ≤ w.cnt.toNat + 1)) :
    (latchDecoded cfg w).s0.getLsbD 8 = false ∧ (latchDecoded cfg w).s8 = 0 := by
  have hno := mt (checksumAvailable_iff w.cnt (declaredLength w)).mp h
  have hflag := congrArg (·.chkOk) (flagsOf_latchDecoded cfg w)
  exact ⟨hflag.trans (if_neg hno), (latchDecoded_s8 cfg w).trans (if_neg hno)⟩

/-- Where it is available the value is that of the two bytes, and the verdict its equality with the declared one. -/
theorem latchDecoded_available (cfg : Config) {w : Working}
    (h : 3 ≤ (declaredLength w).toNat ∧ (declaredLength w).toNat ≤ w.cnt.toNat + 1) :
    (latchDecoded cfg w).s8 = le16 (lowByte w) (highByte w) ∧
      ((latchDecoded cfg w).s0.getLsbD 8 = true ↔ declaredChecksum w = le16 (lowByte w) (highByte w)) := by
  have hyes := (checksumAvailable_iff w.cnt (declaredLength w)).mpr h
  have hflag := congrArg (·.chkOk) (flagsOf_latchDecoded cfg w)
  exact ⟨(latchDecoded_s8 cfg w).trans (if_pos hyes),
    (Bool.eq_iff_iff.mp (hflag.trans (if_pos hyes))).trans decide_eq_true_iff⟩

/-- Settles O13: below 9 bytes `latchInvalid`, else `latchDecoded`, whose two checksum bytes come from the latches or
the captures. -/
theorem endClosesTheFrame : Obligations.EndClosesTheFrame := by
  refine ⟨fun w h => ?encoding, fun s n dl hn hdl => ?close⟩
  case encoding => rw [eq_control_append_data h, decodeWord_endFrame]
  case close =>
    rw [← declaredLength_toNat] at hdl
    subst hn hdl
    rcases Nat.lt_or_ge s.work.cnt.toNat 9 with hshort | hlong
    · exact ⟨_, exec_endFrame_short hshort, rfl, rfl, rfl, fun _ => rfl, fun h => absurd h (by omega)⟩
    · obtain ⟨hdone, hinvalid, hsom, hclass, htype, heom, hlen, havail, hsat⟩ :=
        latchDecoded_statusBits Config.chip s.work
      refine ⟨_, exec_endFrame_long hlong, rfl, rfl, rfl, fun h => absurd h (by omega), fun _ => ⟨hdone, hinvalid, hsom,
        hclass, htype, heom, hlen, havail, hsat, rfl, rfl, rfl, rfl, rfl, rfl, declaredChecksum_toNat _, rfl,
        latchDecoded_s10_toNat _ _, latchDecoded_unavailable _, fun hin lo hi hlo hhi => ?available⟩⟩
      obtain ⟨hvalue, hverdict⟩ := latchDecoded_available Config.chip hin
      rw [lowByte_eq_of_source hin.1 hlo, highByte_eq_of_source (by omega) hhi] at hvalue hverdict
      rw [← le16_toNat]
      exact ⟨congrArg BitVec.toNat hvalue, hverdict.trans BitVec.toNat_inj.symm⟩

/-! ### PUSHL (R167) -/

/-- Settles O14: the close of PUSHL reads the registers its PUSH has written. -/
theorem pushlIsPushThenEnd : Obligations.PushlIsPushThenEnd := by
  refine ⟨fun w h => ?encoding, fun b s => ⟨_, _, exec_eq_perform (.push b) s, exec_endFrame_eq _,
    exec_eq_perform (.pushl b) s⟩⟩
  case encoding => exact (congrArg decodeWord (eq_control_append_data h)).trans (decodeWord_pushl _)

/-- PUSHL: the exact next state. -/
theorem exec_pushl_eq (b : Byte) (s : State) :
    exec (.pushl b) s = .next { s with
      work := Working.cleared, res := latchReport Config.chip (acceptByte b s.work), rptValid := true } :=
  exec_eq_perform (.pushl b) s

/-- Settles O15: the close reads the registers after the byte, which is then the newest of the window. -/
theorem pushlByteIsTheEndMarker : Obligations.PushlByteIsTheEndMarker := by
  intro b s
  have hexec := exec_pushl_eq b s
  have hcnt := acceptByte_cnt_toNat b s.work
  rcases Nat.lt_or_ge s.work.cnt.toNat 8 with hshort | hlong
  · rw [latchReport_short _ _ (by omega)] at hexec
    exact ⟨_, hexec, rfl, rfl, rfl, fun _ => ⟨hcnt.trans (by omega), rfl⟩, fun h => absurd h (by omega)⟩
  · rw [latchReport_long _ _ (by omega)] at hexec
    obtain ⟨h0, -, -, h3, h4, h5⟩ := acceptByte_header b (w := s.work) (by omega)
    obtain ⟨-, -, -, -, -, heom, -⟩ := latchDecoded_statusBits Config.chip (acceptByte b s.work)
    have hdl : declaredLength (acceptByte b s.work) = declaredLength s.work :=
      acceptByte_declaredLength b s.work (by omega)
    exact ⟨_, hexec, rfl, rfl, rfl, fun h => absurd h (by omega), fun _ => ⟨rfl, heom, declaredChecksum_toNat _, hcnt,
      (congrArg BitVec.toNat hdl).trans (declaredLength_toNat _), h0, h3, h4, h5⟩⟩

/-! ### What a step does to the counter, and what it reads (R177, R179) -/

/-- The working registers after a step, by the operation of the word taken. -/
theorem step_next_work {s t : State} (h : step s = .next t) :
    t.work = (perform Config.chip (decodeWord (nextWord s.toProducer)) s.toBlock).work :=
  congrArg Block.work (step_next_toBlock h)

/-- Settles O18: by the working registers each operation leaves. -/
theorem counterMovesAsTheOperationSays : Obligations.CounterMovesAsTheOperationSays := by
  intro s t hstep
  have hwork := step_next_work hstep
  rw [perform_work] at hwork
  refine ⟨fun b hop => ?push, fun hop => ?endFrame, fun b hop => ?pushl, fun hop => ?rst, fun hop => ?idle⟩ <;>
    rw [hop] at hwork <;> rw [hwork]
  case push => exact acceptByte_cnt_toNat b s.work
  all_goals rfl

/-- What a close reports depends on the working registers alone (10_state.md R42). -/
theorem perform_res_of_close (cfg : Config) {i : Instr} {s s' : Block} (hwork : s.work = s'.work)
    (hclose : isClose i = true) : (perform cfg i s).res = (perform cfg i s').res := by
  rw [perform_res, perform_res, hwork]
  cases i with
  | rst | idle | push b => cases hclose
  | endFrame | pushl b => rfl

/-- Settles O20: each operation reads the working registers, and the result registers only to keep them. -/
theorem reportIgnoresHistory : Obligations.ReportIgnoresHistory := by
  intro s s' t t' hwork hword hstep hstep'
  refine ⟨?work, ?strobe, fun hup => ?report⟩
  case work => rw [step_next_work hstep, step_next_work hstep', perform_work, perform_work, hwork, hword]
  case strobe => rw [step_next_rptValid hstep, step_next_rptValid hstep', hword]
  case report =>
    rw [step_next_rptValid hstep] at hup
    rw [step_next_toBlock hstep, step_next_toBlock hstep', stepWord, stepWord, ← hword]
    exact perform_res_of_close _ hwork hup

end Sys2Proof.Machine

/-! SUPPORT. Proofs about the byte stream against the reference functions: what a close, a closed frame and a whole run
report (43_stream_ops.md R155, R165, R170, R175 to R178). -/

namespace Sys2Proof.Machine

/-! ### A close reports the bytes received (R165, R175, R177) -/

/-- The byte at position `dl - 3` of the frame, where it has come: in a header latch or in `cap_lo` (R165;
20_memory.md R58). -/
theorem TracksBytes.getElem?_lowPosition {raw : List Byte} {w : Working} (h : TracksBytes raw w)
    (hlow : 3 ≤ (declaredLength w).toNat) (hin : (declaredLength w).toNat - 3 < raw.length) :
    raw[(declaredLength w).toNat - 3]? = some (lowByte w) := by
  rcases Nat.lt_or_ge (declaredLength w).toNat 9 with hheader | hpast
  · rw [lowByte_header w ((declaredLength w).toNat - 3) (by omega) (by omega), h.latch _ (by omega),
      List.getElem?_eq_getElem hin, Option.getD_some]
  · rw [lowByte_captured w hpast]
    exact h.capLo hpast hin

/-- The byte at position `dl - 2` of the frame, where it has come: in a header latch or in `cap_hi`. -/
theorem TracksBytes.getElem?_highPosition {raw : List Byte} {w : Working} (h : TracksBytes raw w)
    (hlow : 2 ≤ (declaredLength w).toNat) (hin : (declaredLength w).toNat - 2 < raw.length) :
    raw[(declaredLength w).toNat - 2]? = some (highByte w) := by
  rcases Nat.lt_or_ge (declaredLength w).toNat 8 with hheader | hpast
  · rw [highByte_header w ((declaredLength w).toNat - 2) (by omega) (by omega), h.latch _ (by omega),
      List.getElem?_eq_getElem hin, Option.getD_some]
  · rw [highByte_captured w hpast]
    exact h.capHi hpast hin

theorem TracksBytes.cnt_eq {raw : List Byte} {w : Working} (h : TracksBytes raw w) :
    w.cnt = saturatedCount raw.length :=
  BitVec.eq_of_toNat_eq (h.cnt.trans (saturatedCount_toNat _).symm)

/-- A header latch whose byte has come holds it (10_state.md R22). -/
theorem TracksBytes.headerLatch_eq {raw : List Byte} {w : Working} (h : TracksBytes raw w) {k : Nat} (hk : k < 6)
    (hin : k < raw.length) : headerLatch w k = some raw[k] := by
  rw [h.latch k hk, List.getElem?_eq_getElem hin, Option.getD_some]

/-- The working registers hold the fields the Frame Decoder extracts (40_frame_decode.md R101 to R108). -/
structure HoldsFields (f : Fields) (w : Working) : Prop where
  cnt : w.cnt = saturatedCount f.n
  som : w.hdr0 = f.som
  dl : declaredLength w = f.dl
  cls : w.hdr3 = f.cls
  seq : w.hdr4 = f.seq
  typ : w.hdr5 = f.typ
  dchk : declaredChecksum w = f.dchk
  eom : w.tr2 = f.eom

theorem TracksBytes.holdsFields {raw : List Byte} {w : Working} {f : Fields} (h : TracksBytes raw w)
    (hf : decodeFrame raw = .fields f) : HoldsFields f w := by
  have hlong := (extractedFrom_of_decodeFrame hf).long
  have hlatch {k : Nat} (hk : k < 6) := h.headerLatch_eq hk (by omega)
  obtain ⟨h0, h1, h2⟩ := h.window (by omega)
  rw [List.getElem?_eq_getElem (by omega), Option.some_inj] at h0 h1 h2
  rw [decodeFrame_long raw hlong] at hf
  cases hf
  have hdr1 : w.hdr1 = raw[1] := Option.some_inj.mp (hlatch (k := 1) (by decide))
  have hdr2 : w.hdr2 = raw[2] := Option.some_inj.mp (hlatch (k := 2) (by decide))
  exact {
    cnt := h.cnt_eq
    som := Option.some_inj.mp (hlatch (k := 0) (by decide))
    dl := by rw [declaredLength, hdr1, hdr2]
    cls := Option.some_inj.mp (hlatch (k := 3) (by decide))
    seq := Option.some_inj.mp (hlatch (k := 4) (by decide))
    typ := Option.some_inj.mp (hlatch (k := 5) (by decide))
    dchk := by rw [declaredChecksum, h0, h1]
    eom := h2.symm }

/-- A close of 9 bytes or more latches the encoded report of the fields held, when the core answers the reference
function's outcome (R165; 42_checksum_core.md R147). -/
theorem HoldsFields.latchDecoded_eq {f : Fields} {w : Working} (h : HoldsFields f w) (cfg : Config)
    {c : Bool × Checksum}
    (hcore : chkCore (saturatedCount f.n) f.dl f.dchk (lowByte w) (highByte w) =
      ⟨c.1, checksumAvailBit c.2, checksumHalf c.2, checksumOkBit c.2⟩) :
    latchDecoded cfg w = encDecoded (reportOf f (checkFields cfg f) c) := by
  have hsat : decide ((saturatedCount f.n).toNat = cntSat) = decide (cntSat ≤ f.n) := by
    rw [saturatedCount_toNat, cntSat_eq, decide_eq_decide]
    omega
  simp only [latchDecoded, h.cnt, h.som, h.dl, h.cls, h.seq, h.typ, h.dchk, h.eom, hcore, hsat]
  rw [saturatedCount_toNat]
  rfl

/-- The key to R175: on the registers of a frame in progress a close is the reference function. -/
theorem TracksBytes.latchReport_eq {raw : List Byte} {w : Working} (h : TracksBytes raw w) (cfg : Config) :
    latchReport cfg w = enc (validate cfg raw) := by
  have hcnt := h.cnt
  rcases Nat.lt_or_ge raw.length 9 with hshort | hlong
  · rw [latchReport_short cfg w (by omega), validate_short cfg raw hshort, latchInvalid, h.cnt_eq, saturatedCount,
      Nat.min_eq_left (by rw [cntSat_eq]; omega)]
    rfl
  · have hf := decodeFrame_long raw hlong
    have hfields := h.holdsFields hf
    have hcore := chkCore_saturatedCount_eq_chkFrame (extractedFrom_of_decodeFrame hf) (bLo := lowByte w)
      (bHi := highByte w) (by
        rw [← hfields.dl]
        intro hlow hhigh
        exact ⟨h.getElem?_lowPosition hlow (by omega), h.getElem?_highPosition (by omega) (by omega)⟩)
    rw [latchReport_long cfg w (by omega), validate_of_fields cfg hf, hfields.latchDecoded_eq cfg hcore]
    rfl

theorem latchReport_workingAfter (cfg : Config) (raw : List Byte) :
    latchReport cfg (workingAfter raw) = enc (validate cfg raw) :=
  (tracksBytes_workingAfter raw).latchReport_eq cfg

/-- Settles O46: a byte extends the frame in progress, and a close reports it. -/
theorem stepKeepsRealReport : Obligations.StepKeepsRealReport := by
  intro s t hs hstep
  refine @step_keeps (fun w r => HoldsRealReport Config.chip ⟨w, r, false⟩) ?reset ?push ?close s t hs hstep
  case reset => exact ⟨⟨[], rfl⟩, .inl rfl⟩
  case push =>
    rintro b w r ⟨⟨raw, rfl⟩, hres⟩
    exact ⟨⟨raw ++ [b], (workingAfter_concat raw b).symm⟩, hres⟩
  case close =>
    rintro w r ⟨⟨raw, rfl⟩, -⟩
    exact ⟨⟨[], rfl⟩, .inr ⟨raw, latchReport_workingAfter _ raw⟩⟩

/-- Settles O40: the close latches the encoded report of `raw`, in which the count alone is saturated; a declared length
of 16 bits is below a count of 65536. -/
theorem saturationIsExact : Obligations.SaturationIsExact := by
  intro s raw d hwork hd
  have hres : latchReport Config.chip s.work = encDecoded d := by
    rw [hwork, latchReport_workingAfter, hd]
    rfl
  have hexec := exec_endFrame_eq s
  rw [hres] at hexec
  obtain ⟨f, hf, rfl⟩ := exists_fields_of_validate_decoded hd
  have hex := extractedFrom_of_decodeFrame hf
  have hn := hex.n
  have hbound := f.dl.isLt
  have hflags := flagsOf_encDecoded (reportOf f (checkFields Config.chip f) (chkFrame raw f))
  have hread := readDecoded_encDecoded (reportOf f (checkFields Config.chip f) (chkFrame raw f))
  have hs1 : _ = min f.n 65536 := congrArg (·.n) hread
  have hs10 : _ = min f.n 65536 - 9 := congrArg (·.paylen) hread
  have hsat : _ = decide (65536 ≤ f.n) := congrArg (·.lenSat) hflags
  refine ⟨_, hexec, fun hlarge => ⟨hs1.trans (by omega), hs10.trans (by omega),
    hsat.trans (decide_eq_true (by omega)), ?lenOk, ?avail⟩, fun hsmall => ⟨hs1.trans (by omega), hs10.trans (by omega),
    hsat.trans (decide_eq_false (by omega))⟩, rfl, rfl, rfl, rfl, rfl, rfl, rfl, rfl, congrArg (·.done) hflags,
    congrArg (·.invalid) hflags, congrArg (·.somOk) hflags, congrArg (·.classOk) hflags, congrArg (·.typeOk) hflags,
    congrArg (·.eomOk) hflags, congrArg (·.lenOk) hflags, congrArg (·.chkAvail) hflags, congrArg (·.chkOk) hflags⟩
  case lenOk =>
    refine Bool.eq_false_iff.mpr fun hlenOk => ?_
    have hlen := hex.lengthValid_iff.mp hlenOk
    omega
  case avail =>
    refine (checksumAvailBit_iff _).trans ((chkOutcome_ne_unavailable_iff raw f).trans ?_)
    exact and_iff_left (by omega)

/-! ### A closed frame (R175) -/

/-- END on the registers of a frame in progress reports that frame. -/
theorem perform_endFrame_of_workingAfter (cfg : Config) {s : Block} {raw : List Byte} (h : s.work = workingAfter raw) :
    perform cfg .endFrame s = ⟨Working.cleared, enc (validate cfg raw), true⟩ := by
  rw [← latchReport_workingAfter, ← h]
  rfl

/-- PUSHL reports that frame and its own byte. -/
theorem perform_pushl_of_workingAfter (cfg : Config) {s : Block} {raw : List Byte} (b : Byte)
    (h : s.work = workingAfter raw) :
    perform cfg (.pushl b) s = ⟨Working.cleared, enc (validate cfg (raw ++ [b])), true⟩ := by
  have hpush : (perform cfg (.push b) s).work = workingAfter (raw ++ [b]) := by
    rw [workingAfter_concat, ← h]
    rfl
  rw [perform_pushl, perform_endFrame_of_workingAfter cfg hpush]

/-- Words that present the frame `raw` leave its encoded report, from cleared working registers. -/
theorem runWords_of_presentsFrame (cfg : Config) {s : Block} {raw : List Byte} {ws : List OpWord}
    (hclear : s.work = Working.cleared) (h : PresentsFrame raw ws) :
    runWords cfg s ws = ⟨Working.cleared, enc (validate cfg raw), true⟩ := by
  have hpushes {body : List OpWord} {bytes : List Byte} (hops : activeOps body = bytes.map .push) :
      (runWords cfg s body).work = workingAfter bytes := by
    rw [runWords_work_of_pushes cfg hops, hclear]
    rfl
  obtain ⟨body, closing, rfl, ⟨hclose, hops⟩ | ⟨bytes, last, rfl, hclose, hops⟩⟩ := h
  · rw [runWords_append, runWords_cons, runWords_nil, stepWord, hclose,
      perform_endFrame_of_workingAfter cfg (hpushes hops)]
  · rw [runWords_append, runWords_cons, runWords_nil, stepWord, hclose,
      perform_pushl_of_workingAfter cfg last (hpushes hops)]

/-- Settles O39: the reference run by its words, and the machine runs it. -/
theorem closedFrameReportsItsBytes : Obligations.ClosedFrameReportsItsBytes := by
  refine ⟨fun s raw ws rest hclear hpresents hpending => ?machine, fun cfg s raw ws hclear hpresents => ?reference⟩
  case machine =>
    have hrun := runSteps_of_pending hpending
    rw [runWords_of_presentsFrame _ hclear hpresents] at hrun
    exact ⟨_, hrun, rfl, rfl, rfl, rfl, rfl⟩
  case reference =>
    rw [runWords_of_presentsFrame cfg hclear hpresents]
    exact ⟨rfl, rfl, rfl⟩

/-! ### Runs on listed words (R155, R170) -/

/-- Settles O9: by induction on the listed words, one step a word. -/
theorem machineRunsTheReferenceStep : Obligations.MachineRunsTheReferenceStep :=
  fun _ _ _ h => runSteps_of_pending h

/-- Words that neither close nor reset keep the result registers, and the last of them lowers the strobe. -/
theorem runWords_of_not_close (cfg : Config) (s : Block) {ws : List OpWord}
    (h : ∀ w ∈ ws, decodeWord w ≠ .rst ∧ isClose (decodeWord w) = false) :
    (runWords cfg s ws).res = s.res ∧ (ws ≠ [] → (runWords cfg s ws).rptValid = false) := by
  induction ws using List.reverseRecOn with
  | nil => exact ⟨rfl, absurd rfl⟩
  | append_singleton ws w ih =>
    obtain ⟨hrst, hclose⟩ := h w (by simp)
    obtain ⟨hres, -⟩ := ih fun v hv => h v (List.mem_append_left _ hv)
    rw [runWords_append, runWords_cons, runWords_nil, stepWord]
    exact ⟨(perform_res_of_not_close cfg _ hrst hclose).trans hres, fun _ => (perform_rptValid cfg _ _).trans hclose⟩

/-- Settles O21: IDLE and PUSH neither close nor reset. -/
theorem reportIsHeldUntilTheNextClose : Obligations.ReportIsHeldUntilTheNextClose := by
  intro s ws rest hpending hops
  have hquiet : ∀ w ∈ ws, decodeWord w ≠ .rst ∧ isClose (decodeWord w) = false := by
    intro w hw
    obtain hidle | ⟨b, hpush⟩ := hops w hw
    · rw [hidle]; exact ⟨Instr.noConfusion, rfl⟩
    · rw [hpush]; exact ⟨Instr.noConfusion, rfl⟩
  obtain ⟨hres, hdown⟩ := runWords_of_not_close Config.chip s.toBlock hquiet
  refine ⟨_, runSteps_of_pending hpending, hres, hdown, ?_⟩
  rintro rfl
  rfl

/-! ### The sampled reports of a run (R177; 70_reset_and_hazards.md R224) -/

theorem stepBlocks_succ {s t : State} (k : Nat) (h : step s = .next t) :
    stepBlocks (k + 1) s = t.toBlock :: stepBlocks k t := by
  simp only [stepBlocks, h]

/-- The machine on listed words passes through the states of the reference run. -/
theorem stepBlocks_of_pending {s : State} {ws rest : List OpWord} (h : s.pending = ws ++ rest) :
    stepBlocks ws.length s = runStates Config.chip s.toBlock ws := by
  induction ws generalizing s with
  | nil => rfl
  | cons w ws ih => rw [List.length_cons, stepBlocks_succ _ (step_of_pending h), ih rfl, runStates]

/-- One word more: a close adds its report to those sampled, another word none. -/
theorem sampledReports_runStates_cons (cfg : Config) (s : Block) (w : OpWord) (ws : List OpWord) :
    sampledReports (runStates cfg s (w :: ws)) =
      if isClose (decodeWord w) then
        (stepWord cfg s w).res :: sampledReports (runStates cfg (stepWord cfg s w) ws)
      else sampledReports (runStates cfg (stepWord cfg s w) ws) := by
  have hstrobe : (stepWord cfg s w).rptValid = isClose (decodeWord w) := perform_rptValid cfg _ s
  rw [runStates, sampledReports, List.filter_cons, hstrobe]
  split <;> rfl

/-- With the bytes `cur` of an open frame in the registers, the reports of a run are those of the frames its words
close. -/
theorem sampledReports_runStates (cfg : Config) {s : Block} {cur : List Byte} (ws : List OpWord)
    (h : s.work = workingAfter cur) :
    sampledReports (runStates cfg s ws) = (framesClosed cur ws).map fun raw => enc (validate cfg raw) := by
  induction ws generalizing s cur with
  | nil => rfl
  | cons w ws ih =>
    rw [sampledReports_runStates_cons, framesClosed, stepWord]
    cases decodeWord w with
    | rst => exact ih rfl
    | idle => exact ih h
    | endFrame =>
      rw [perform_endFrame_of_workingAfter cfg h]
      exact congrArg (_ :: ·) (ih rfl)
    | push b =>
      refine ih ?_
      rw [workingAfter_concat, ← h]
      rfl
    | pushl b =>
      rw [perform_pushl_of_workingAfter cfg b h]
      exact congrArg (_ :: ·) (ih rfl)

/-- Settles O41: RST is sampled as no report and opens the empty frame. -/
theorem reportsAreTheClosedFrames : Obligations.ReportsAreTheClosedFrames := by
  intro s w ws rest hrst hpending
  have hrun : stepBlocks (ws.length + 1) s = runStates Config.chip s.toBlock (w :: ws) := stepBlocks_of_pending hpending
  have hwork : (stepWord Config.chip s.toBlock w).work = workingAfter [] := by
    rw [stepWord, hrst]
    rfl
  rw [hrun, sampledReports_runStates_cons, hrst, isClose, if_neg Bool.false_ne_true,
    sampledReports_runStates Config.chip ws hwork]

/-! ### IDLE is transparent (R178) -/

/-- A word sequence without its IDLE words. -/
def withoutIdle (ws : List OpWord) : List OpWord := ws.filter fun w => !isIdle (decodeWord w)

theorem withoutIdle_cons_idle {w : OpWord} (ws : List OpWord) (h : isIdle (decodeWord w) = true) :
    withoutIdle (w :: ws) = withoutIdle ws :=
  List.filter_cons_of_neg (by simp [h])

theorem withoutIdle_cons_active {w : OpWord} (ws : List OpWord) (h : isIdle (decodeWord w) = false) :
    withoutIdle (w :: ws) = w :: withoutIdle ws :=
  List.filter_cons_of_pos (by simp [h])

theorem isIdle_iff (i : Instr) : isIdle i = true ↔ i = .idle := by
  cases i <;> simp [isIdle]

/-- No operation reads the strobe. -/
theorem perform_eq_of_registers_eq (cfg : Config) (i : Instr) {s s' : Block} (hwork : s.work = s'.work)
    (hres : s.res = s'.res) : perform cfg i s = perform cfg i s' := by
  obtain ⟨w, r, v⟩ := s
  obtain ⟨w', r', v'⟩ := s'
  subst hwork hres
  cases i <;> rfl

/-- From registers equal but for the strobe, a word sequence and the same without its IDLE words. The strobe is left out
because an IDLE lowers it, and the next word overwrites it unread. -/
theorem run_withoutIdle (cfg : Config) {s s' : Block} (ws : List OpWord) (hwork : s.work = s'.work)
    (hres : s.res = s'.res) :
    (runWords cfg s ws).work = (runWords cfg s' (withoutIdle ws)).work ∧
      (runWords cfg s ws).res = (runWords cfg s' (withoutIdle ws)).res ∧
      sampledReports (runStates cfg s ws) = sampledReports (runStates cfg s' (withoutIdle ws)) := by
  induction ws generalizing s s' with
  | nil => exact ⟨hwork, hres, rfl⟩
  | cons w ws ih =>
    cases h : isIdle (decodeWord w) with
    | true =>
      have hstep : stepWord cfg s w = idleBlock s := by
        rw [stepWord, (isIdle_iff _).mp h]
        rfl
      rw [withoutIdle_cons_idle ws h, runWords_cons, sampledReports_runStates_cons, (isIdle_iff _).mp h, hstep]
      exact ih hwork hres
    | false =>
      have hstep : stepWord cfg s w = stepWord cfg s' w := perform_eq_of_registers_eq cfg _ hwork hres
      obtain ⟨hwork', hres', hreports⟩ := @ih (stepWord cfg s' w) _ rfl rfl
      rw [withoutIdle_cons_active ws h, runWords_cons, runWords_cons, sampledReports_runStates_cons,
        sampledReports_runStates_cons, hstep, hreports]
      exact ⟨hwork', hres', rfl⟩

/-- Settles O42: (a) from equal states, (b) by the close of PUSHL. -/
theorem idleWordsAreTransparent : Obligations.IdleWordsAreTransparent := by
  refine ⟨fun cfg s ws => run_withoutIdle cfg ws rfl rfl, fun cfg s b p e l hp he hl => ?pushl⟩
  case pushl =>
    simp only [runWords_cons, runWords_nil, stepWord, hp, he, hl]
    exact perform_pushl cfg b s

end Sys2Proof.Machine

/-! SUPPORT. Proofs about the diagnostics DG1 to DG9 (60_exceptions.md): when each is signalled, what is recorded for
it, and which of them occur together. -/

namespace Sys2Proof.Machine

/-! ### Each diagnostic and its cause (R192 to R201) -/

/-- The column "cause" of the table of R201, for a frame whose fields are `f`. -/
def DiagnosticCause (cfg : Config) (raw : List Byte) (f : Fields) : Diagnostic → Prop
  | .invalidMessage => raw.length < 9
  | .badStart => f.som ≠ 0xF0#8
  | .unknownClass => cfg.classMap f.cls = false
  | .unknownType => cfg.typeMap f.typ = false
  | .badEnd => f.eom ≠ 0x55#8
  | .lengthMismatch => f.dl.toNat ≠ raw.length
  | .checksumUnavailable => f.dl.toNat < 3 ∨ raw.length + 1 < f.dl.toNat
  | .checksumMismatch => ∃ cchk, chkOutcome raw f = .available cchk false
  | .countSaturated => 65536 ≤ raw.length

theorem signalled_enc_invalid (n : Fin 9) (d : Diagnostic) :
    signalled (enc (.invalid n)) d = decide (d = .invalidMessage) :=
  signalled_of_invalid (by rw [flagsOf_enc_invalid]) (by rw [flagsOf_enc_invalid]) d

/-- The flags of the report of a frame of 9 bytes or more, from its fields (10_state.md R40; 42_checksum_core.md
R147). -/
theorem flagsOf_enc_validate (cfg : Config) {raw : List Byte} {f : Fields} (h : decodeFrame raw = .fields f) :
    flagsOf (enc (validate cfg raw)) =
      { done := true
        invalid := false
        somOk := f.som == 0xF0#8
        classOk := cfg.classMap f.cls
        typeOk := cfg.typeMap f.typ
        eomOk := f.eom == 0x55#8
        lenOk := lengthValid f
        chkAvail := checksumAvailBit (chkOutcome raw f)
        chkOk := checksumOkBit (chkOutcome raw f)
        lenSat := decide (65536 ≤ raw.length) } := by
  rw [validate_of_fields cfg h, enc, flagsOf_encDecoded, ← (extractedFrom_of_decodeFrame h).n]
  rfl

/-- A verdict that is not "valid" (R199): the flag is read only where the checksum is available. -/
theorem checksumAvailBit_and_not_okBit_iff (c : Checksum) :
    (checksumAvailBit c && !checksumOkBit c) = true ↔ ∃ cchk, c = .available cchk false := by
  cases c <;> simp [checksumAvailBit, checksumOkBit]

theorem checksumAvailBit_eq_false_iff (c : Checksum) : checksumAvailBit c = false ↔ c = .unavailable := by
  rw [← Bool.not_eq_true, checksumAvailBit_iff, not_ne_iff]

theorem chkOutcome_eq_unavailable_iff (raw : List Byte) (f : Fields) :
    chkOutcome raw f = .unavailable ↔ f.dl.toNat < 3 ∨ raw.length + 1 < f.dl.toNat := by
  rw [← not_iff_not, ← ne_eq, chkOutcome_ne_unavailable_iff]
  omega

/-- A frame of 9 bytes or more signals each diagnostic exactly for its cause (R201). -/
theorem signalled_iff_cause (cfg : Config) {raw : List Byte} {f : Fields} (h : decodeFrame raw = .fields f)
    (d : Diagnostic) : signalled (enc (validate cfg raw)) d = true ↔ DiagnosticCause cfg raw f d := by
  have hex := extractedFrom_of_decodeFrame h
  have hflags := flagsOf_enc_validate cfg h
  cases d with
  | invalidMessage => simp [signalled, hflags, DiagnosticCause, hex.long]
  | badStart => simp [signalled, hflags, DiagnosticCause]
  | unknownClass => simp [signalled, hflags, DiagnosticCause]
  | unknownType => simp [signalled, hflags, DiagnosticCause]
  | badEnd => simp [signalled, hflags, DiagnosticCause]
  | lengthMismatch => simp [signalled, hflags, DiagnosticCause, ← hex.lengthValid_iff]
  | checksumUnavailable =>
    rw [DiagnosticCause, ← chkOutcome_eq_unavailable_iff, ← checksumAvailBit_eq_false_iff]
    simp [signalled, hflags]
  | checksumMismatch =>
    rw [DiagnosticCause, ← checksumAvailBit_and_not_okBit_iff]
    simp [signalled, hflags]
  | countSaturated => simp [signalled, hflags, DiagnosticCause]

/-- DG1 is signalled exactly before the gate of 9 bytes (R192). -/
theorem signalled_invalidMessage_iff (cfg : Config) (raw : List Byte) :
    signalled (enc (validate cfg raw)) .invalidMessage = true ↔ raw.length < 9 := by
  rcases Nat.lt_or_ge raw.length 9 with hshort | hlong
  · rw [validate_short cfg raw hshort, signalled_enc_invalid]
    exact iff_of_true rfl hshort
  · exact signalled_iff_cause cfg (decodeFrame_long raw hlong) .invalidMessage

/-- DG1 is signalled alone (R202 (a)). -/
theorem diagnosticsOf_short (cfg : Config) {raw : List Byte} (h : raw.length < 9) :
    diagnosticsOf (enc (validate cfg raw)) = [.invalidMessage] := by
  rw [validate_short cfg raw h]
  exact diagnosticsOf_enc_invalid _

/-! ### The values recorded (R192 to R201) -/

theorem recordedValues_invalidMessage (cfg : Config) {raw : List Byte} (h : raw.length < 9) :
    recordedValues (enc (validate cfg raw)) .invalidMessage = [raw.length] := by
  rw [validate_short cfg raw h, recordedValues, enc_invalid_s1_toNat]

theorem recordedValues_lengthMismatch (d : DecodedReport) :
    recordedValues (enc (.decoded d)) .lengthMismatch = [d.dl.toNat, min d.n 65536] :=
  congrArg (fun k => [d.dl.toNat, k]) (saturatedCount_toNat d.n)

theorem recordedValues_checksumMismatch {d : DecodedReport} {cchk : Half} {ok : Bool}
    (h : d.chk = .available cchk ok) :
    recordedValues (enc (.decoded d)) .checksumMismatch = [d.dchk.toNat, cchk.toNat] :=
  congrArg (fun c => [d.dchk.toNat, (checksumHalf c).toNat]) h

theorem recordedValues_countSaturated {d : DecodedReport} (h : 65536 ≤ d.n) :
    recordedValues (enc (.decoded d)) .countSaturated = [65536] := by
  rw [recordedValues, enc_decoded_s1_saturated h]

/-- The verdict of an available checksum is its comparison with the declared one (42_checksum_core.md R140). -/
theorem chkOutcome_verdict {raw : List Byte} {f : Fields} {cchk : Half} {ok : Bool}
    (h : chkOutcome raw f = .available cchk ok) : ok = decide (f.dchk = cchk) := by
  have hne : chkOutcome raw f ≠ .unavailable := h ▸ Checksum.noConfusion
  obtain ⟨hlow, hhigh⟩ := (chkOutcome_ne_unavailable_iff raw f).mp hne
  obtain ⟨lo, hi, hlo, hhi⟩ := exists_checksum_bytes hlow hhigh
  rw [chkOutcome_of_bytes hlow hlo hhi] at h
  cases h
  rfl

/-- Settles O35: each row of R201 by `signalled_iff_cause`, its values by the register they are read from. -/
theorem diagnosticsMatchTheirCauses : Obligations.DiagnosticsMatchTheirCauses := by
  rintro cfg raw r rfl
  refine ⟨signalled_invalidMessage_iff cfg raw,
    fun hshort => ⟨recordedValues_invalidMessage cfg hshort, diagnosticsOf_short cfg hshort⟩, fun f hf => ?long⟩
  case long =>
    have hcause := signalled_iff_cause cfg hf
    have hn := (extractedFrom_of_decodeFrame hf).n
    rw [validate_of_fields cfg hf] at hcause ⊢
    refine ⟨hcause .badStart, rfl, hcause .unknownClass, rfl, hcause .unknownType, rfl, hcause .badEnd, rfl,
      hcause .lengthMismatch, ?lengths, hcause .checksumUnavailable, rfl, hcause .checksumMismatch,
      fun cchk hchk => ⟨?differ, recordedValues_checksumMismatch hchk⟩, hcause .countSaturated,
      fun hsat => recordedValues_countSaturated (hsat.trans_eq hn.symm)⟩
    case lengths => rw [← hn]; exact recordedValues_lengthMismatch _
    case differ => exact of_decide_eq_false (chkOutcome_verdict hchk).symm

/-! ### Which diagnostics occur together (R202) -/

/-- DG7 and DG8 exclude each other: a checksum that is unavailable has no verdict (R202 (c)). -/
theorem not_unavailable_and_mismatch (cfg : Config) (raw : List Byte) (f : Fields) :
    ¬ (DiagnosticCause cfg raw f .checksumUnavailable ∧ DiagnosticCause cfg raw f .checksumMismatch) := by
  rintro ⟨hout, cchk, hchk⟩
  rw [(chkOutcome_eq_unavailable_iff raw f).mpr hout] at hchk
  cases hchk

theorem not_checksumMismatch_of_valid (cfg : Config) {raw : List Byte} {f : Fields} {cchk : Half}
    (h : chkOutcome raw f = .available cchk true) : ¬ DiagnosticCause cfg raw f .checksumMismatch := by
  rintro ⟨_, hchk⟩
  rw [h] at hchk
  cases hchk

/-- The cause of DG7, DG8 or DG9 is the cause of DG6 too: a right length lies inside the range of R138, addresses the
declared checksum itself, and has 16 bits (R202 (d)). -/
theorem lengthMismatch_of_checksum_or_saturation {cfg : Config} {raw : List Byte} {f : Fields}
    (hex : ExtractedFrom raw f)
    (h : DiagnosticCause cfg raw f .checksumUnavailable ∨ DiagnosticCause cfg raw f .checksumMismatch ∨
      DiagnosticCause cfg raw f .countSaturated) : DiagnosticCause cfg raw f .lengthMismatch := by
  intro hlen
  have hlong := hex.long
  have hbound := f.dl.isLt
  rcases h with hout | hmismatch | hsat
  · simp only [DiagnosticCause] at hout
    omega
  · exact not_checksumMismatch_of_valid cfg (hex.chkOutcome_of_right_length hlen) hmismatch
  · simp only [DiagnosticCause] at hsat
    omega

/-- A frame of 9 bytes from the five bytes that DG2 to DG6 look at, the low byte of the declared length among them. Its
declared checksum is made of two end markers. -/
def nineByteFrame (start len cls typ stop : Byte) : List Byte :=
  [start, len, 0x00, cls, 0x00, typ, 0x55, 0x55, stop]

@[simp] theorem length_nineByteFrame (start len cls typ stop : Byte) :
    (nineByteFrame start len cls typ stop).length = 9 := rfl

theorem decodeFrame_nineByteFrame (start len cls typ stop : Byte) :
    decodeFrame (nineByteFrame start len cls typ stop) = .fields
      { n := 9
        som := start
        dl := le16 len 0x00
        cls := cls
        seq := 0x00
        typ := typ
        paylen := 0
        dchk := 0x5555
        eom := stop } :=
  decodeFrame_layout start len 0x00 cls 0x00 typ 0x55 0x55 stop []

/-- With one byte too many declared and the right end marker, the positions of R136 fall on the second checksum byte and
the end marker: the checksum is valid at a wrong length (42_checksum_core.md R145), and DG6 comes alone (R202 (e)). -/
theorem diagnosticsOf_nineByteFrame_oneMore (cfg : Config) {kc kt : Byte} (hc : cfg.classMap kc = true)
    (ht : cfg.typeMap kt = true) :
    diagnosticsOf (enc (validate cfg (nineByteFrame 0xF0 10 kc kt 0x55))) = [.lengthMismatch] := by
  have hf := decodeFrame_nineByteFrame 0xF0 10 kc kt 0x55
  have hchk := (extractedFrom_of_decodeFrame hf).chkOutcome_valid (by simp [le16_toNat]) rfl rfl
  have honly (d : Diagnostic) : signalled (enc (validate cfg (nineByteFrame 0xF0 10 kc kt 0x55))) d =
      decide (d = .lengthMismatch) := by
    rw [Bool.eq_iff_iff, signalled_iff_cause cfg hf d, decide_eq_true_iff]
    cases d with
    | checksumMismatch => exact iff_of_false (not_checksumMismatch_of_valid cfg hchk) (by decide)
    | _ => simp [DiagnosticCause, hc, ht, le16_toNat]
  rw [diagnosticsOf, funext honly]
  decide

/-- Settles O36: DG1 by the gate on the length, the other relations by the causes, DG6 alone by a frame that declares
one byte too many. -/
theorem diagnosticStructure : Obligations.DiagnosticStructure := by
  refine ⟨?relations, fun cfg kc kt hc ht => ⟨_, diagnosticsOf_nineByteFrame_oneMore cfg hc ht⟩⟩
  case relations =>
    rintro cfg raw r rfl
    refine ⟨fun h => diagnosticsOf_short cfg ((signalled_invalidMessage_iff cfg raw).mp h), ?_⟩
    rcases Nat.lt_or_ge raw.length 9 with hshort | hlong
    · simp [validate_short cfg raw hshort, signalled_enc_invalid]
    · have hf := decodeFrame_long raw hlong
      simp only [signalled_iff_cause cfg hf]
      exact ⟨not_unavailable_and_mismatch cfg raw _,
        lengthMismatch_of_checksum_or_saturation (extractedFrom_of_decodeFrame hf)⟩

/-! ### All combinations of the marker, code and length checks (R202 (b); 41_frame_validate.md R125) -/

/-- A diagnostic with a cause decided by `b` is signalled as `b` says. -/
theorem signalled_eq_of_cause_iff {cfg : Config} {raw : List Byte} {f : Fields} {d : Diagnostic} {b : Bool}
    (hf : decodeFrame raw = .fields f) (h : DiagnosticCause cfg raw f d ↔ b = true) :
    signalled (enc (validate cfg raw)) d = b :=
  Bool.eq_iff_iff.mpr ((signalled_iff_cause cfg hf d).trans h)

/-- Of a known and an unknown byte, the one chosen by `b` is unknown exactly where `b` is set. -/
theorem map_choice_eq_false_iff {map : Byte → Bool} {known unknown : Byte} (hk : map known = true)
    (hu : map unknown = false) (b : Bool) : map (if b then unknown else known) = false ↔ b = true := by
  cases b <;> simp [hk, hu]

/-- Settles O37: the five bytes of `nineByteFrame` are chosen one by one, and each decides its own diagnostic. -/
theorem markerChecksAreIndependent : Obligations.MarkerChecksAreIndependent := by
  intro cfg kc uc kt ut hkc huc hkt hut som class' type' eom len
  have hf := decodeFrame_nineByteFrame (if som then 0x00 else 0xF0) (if len then 10 else 9)
    (if class' then uc else kc) (if type' then ut else kt) (if eom then 0x00 else 0x55)
  refine ⟨_, signalled_eq_of_cause_iff hf ?gate, signalled_eq_of_cause_iff hf ?start,
    signalled_eq_of_cause_iff hf (map_choice_eq_false_iff hkc huc class'),
    signalled_eq_of_cause_iff hf (map_choice_eq_false_iff hkt hut type'),
    signalled_eq_of_cause_iff hf ?stop, signalled_eq_of_cause_iff hf ?length⟩
  case gate => exact iff_of_false (Nat.lt_irrefl 9) Bool.false_ne_true
  case start => cases som <;> simp [DiagnosticCause]
  case stop => cases eom <;> simp [DiagnosticCause]
  case length => cases len <;> simp [DiagnosticCause, le16_toNat]

end Sys2Proof.Machine

/-! SUPPORT. Proofs about resets in mid-frame and frames left open (70_reset_and_hazards.md). -/

namespace Sys2Proof.Machine

/-! ### A reset before a frame (R221, R222, R227) -/

/-- RST clears the working registers, whatever they held. -/
theorem stepWord_work_of_rst (cfg : Config) (s : Block) {w : OpWord} (h : decodeWord w = .rst) :
    (stepWord cfg s w).work = Working.cleared := by
  rw [stepWord, h, perform_work]

/-- Settles O24: RST clears the working registers, and from there the words of the frame leave its report. -/
theorem resetThenFrameReportsTheFrame : Obligations.ResetThenFrameReportsTheFrame := by
  intro s raw w ws rest hrst hpresents hpending
  have hrun := runSteps_of_pending hpending
  rw [runWords_cons, runWords_of_presentsFrame _ (stepWord_work_of_rst _ _ hrst) hpresents] at hrun
  exact ⟨_, hrun, rfl, rfl, rfl⟩

/-! ### A frame left open (R228; 10_state.md R21) -/

/-- The words that present an open frame neither reset nor close: each is an IDLE or one of the pushes. -/
theorem not_close_of_pushes {ws : List OpWord} {bytes : List Byte} (h : activeOps ws = bytes.map .push) :
    ∀ w ∈ ws, decodeWord w ≠ .rst ∧ isClose (decodeWord w) = false := by
  intro w hw
  cases hidle : isIdle (decodeWord w) with
  | true =>
    rw [(isIdle_iff _).mp hidle]
    exact ⟨Instr.noConfusion, rfl⟩
  | false =>
    have hactive : decodeWord w ∈ activeOps ws :=
      List.mem_filter.mpr ⟨List.mem_map_of_mem hw, by rw [hidle]; rfl⟩
    rw [h] at hactive
    obtain ⟨b, -, hpush⟩ := List.mem_map.mp hactive
    rw [← hpush]
    exact ⟨Instr.noConfusion, rfl⟩

/-- A run in which no word closes a frame has no state with the strobe up. -/
theorem sampledReports_of_not_close (cfg : Config) (s : Block) {ws : List OpWord}
    (h : ∀ w ∈ ws, isClose (decodeWord w) = false) : sampledReports (runStates cfg s ws) = [] := by
  induction ws generalizing s with
  | nil => rfl
  | cons w ws ih =>
    obtain ⟨hw, hws⟩ := List.forall_mem_cons.mp h
    rw [sampledReports_runStates_cons, hw, if_neg Bool.false_ne_true]
    exact ih _ hws

/-- The count after any number of bytes, from a count in range. -/
theorem foldl_acceptByte_cnt_toNat (bytes : List Byte) {w : Working} (h : w.cnt.toNat ≤ 65536) :
    (bytes.foldl (fun w b => acceptByte b w) w).cnt.toNat = min (w.cnt.toNat + bytes.length) 65536 := by
  induction bytes generalizing w with
  | nil => exact (Nat.min_eq_left h).symm
  | cons b bytes ih =>
    have hcnt := acceptByte_cnt_toNat b w
    rw [List.foldl_cons, ih (by omega), hcnt, List.length_cons]
    omega

/-- Settles O22: no word of an open frame closes or resets, and each push counts one byte up to the saturation. -/
theorem openFrameNeverReports : Obligations.OpenFrameNeverReports := by
  intro s ws rest bytes hpending hcnt hops
  have hquiet := not_close_of_pushes hops
  refine ⟨?noReport, _, runSteps_of_pending hpending, (runWords_of_not_close _ _ hquiet).1, ?count⟩
  case noReport =>
    rw [stepBlocks_of_pending hpending]
    exact sampledReports_of_not_close _ _ fun w hw => (hquiet w hw).2
  case count =>
    rw [runWords_work_of_pushes _ hops]
    exact foldl_acceptByte_cnt_toNat bytes hcnt

end Sys2Proof.Machine
